-- ==== Sys2Proof/Word.lean ====
section
/-! DEFINITION. The word types of the block and the two small containers that index by port and by class. -/

namespace Sys2Proof

/-- One byte of a frame, an image or a data block (12_formats, R169). -/
abbrev Byte := BitVec 8
/-- Rounds, generation numbers, tags and residues (00_scope, "Wrapping values"). -/
abbrev W16 := BitVec 16
/-- Offsets and lengths that an image carries in three bytes (12.4). -/
abbrev W24 := BitVec 24
/-- Counters and the cycle count (00_scope, "Wrapping values"). -/
abbrev W32 := BitVec 32
/-- A traffic class, 0 to 3 (00_scope, "Class"). -/
abbrev Cls := Fin 4

/-- The three link ports (00_scope, "What the part is for"). -/
inductive Port where
  | A | B | L
deriving DecidableEq, Repr

/-- One value for each of the ports A, B and L. -/
structure Trio (α : Type) where
  A : α
  B : α
  L : α
deriving DecidableEq, Repr

/-- One value for each of the classes 0 to 3 (or for each of four like things numbered 0 to 3). -/
structure Quad (α : Type) where
  c0 : α
  c1 : α
  c2 : α
  c3 : α
deriving DecidableEq, Repr

/-- The value of port `p`. -/
def Trio.get {α : Type} (t : Trio α) (p : Port) : α :=
  match p with
  | .A => t.A
  | .B => t.B
  | .L => t.L

/-- `t` with the value of port `p` replaced. -/
def Trio.set {α : Type} (t : Trio α) (p : Port) (v : α) : Trio α :=
  match p with
  | .A => { t with A := v }
  | .B => { t with B := v }
  | .L => { t with L := v }

/-- The same value for every port. -/
def Trio.all {α : Type} (v : α) : Trio α := ⟨v, v, v⟩

/-- The value of class `c`. -/
def Quad.get {α : Type} (q : Quad α) (c : Cls) : α :=
  match c with
  | 0 => q.c0
  | 1 => q.c1
  | 2 => q.c2
  | 3 => q.c3

/-- `q` with the value of class `c` replaced. -/
def Quad.set {α : Type} (q : Quad α) (c : Cls) (v : α) : Quad α :=
  match c with
  | 0 => { q with c0 := v }
  | 1 => { q with c1 := v }
  | 2 => { q with c2 := v }
  | 3 => { q with c3 := v }

/-- The same value for every class. -/
def Quad.all {α : Type} (v : α) : Quad α := ⟨v, v, v, v⟩

/-- The values in class order 0 to 3. -/
def Quad.toList {α : Type} (q : Quad α) : List α := [q.c0, q.c1, q.c2, q.c3]

/-- The values in port order A, B, L. -/
def Trio.toList {α : Type} (t : Trio α) : List α := [t.A, t.B, t.L]

end Sys2Proof
end

