-- ==== Sys2Proof/Syntax.lean ====
section
/-! DEFINITION. The commands of the block: one constructor for each row of spec/opcode_table.json (95_what_each_step_holds
lists what comes about inside each). The rows that are requests carry no operand: their operands are the bytes of the
request frame, which the management engine reads from the frame's slot (R135). -/

namespace Sys2Proof

/-- The commands, in the table's order. -/
inductive Instr where
  /-- POWER_ON (R165, R167): the power-on reset hold is released; `straps` is the level of the seven ADDR pins. -/
  | powerOn (straps : Nat)
  /-- RESET_N_ASSERTION (R166): RESET_N goes low. -/
  | resetNAssertion
  /-- PIN_RESET (R166, R167): RESET_N rises; `straps` is the level of the seven ADDR pins. -/
  | pinReset (straps : Nat)
  /-- RECEPTION_START (R3): the receiver of `port` sees a start of frame. -/
  | receptionStart (port : Port)
  /-- KIND_FIELD_RECEIVED (R4): the byte at offset 02h of the frame being received on `port` is `kind`. -/
  | kindFieldReceived (port : Port) (kind : Byte)
  /-- RECEPTION_END (R5): the last byte of the frame has been received; `bytes` are all the bytes of the frame. -/
  | receptionEnd (port : Port) (bytes : List Byte)
  /-- LINK_CHECK (R9): the link check of `port` samples signal-good as `good`. -/
  | linkCheck (port : Port) (good : Bool)
  /-- CYCLE_END (R20): the position has reached the effective length. -/
  | cycleEnd
  /-- WINDOW_EVENT (R79): the position is one at which a window of `port` closes or opens. -/
  | windowEvent (port : Port)
  /-- TRANSMISSION_END (R102): the occupation of the transmission on `port` has passed. -/
  | transmissionEnd (port : Port)
  /-- UNKNOWN_REQUEST_KIND (R139): the engine takes a request of a kind outside the eighteen. -/
  | unknownRequestKind
  /-- IDENTIFY (R152). -/
  | identify
  /-- READ STATUS (R153). -/
  | readStatus
  /-- READ STREAM COUNTERS (R154). -/
  | readStreamCounters
  /-- READ PORT COUNTERS (R155). -/
  | readPortCounters
  /-- READ ENTRIES (R156). -/
  | readEntries
  /-- STAGE STREAM ENTRIES (R157). -/
  | stageStreamEntries
  /-- STAGE WINDOW ENTRIES (R157). -/
  | stageWindowEntries
  /-- STAGE BASE RECORD (R157). -/
  | stageBaseRecord
  /-- COPY ACTIVE TO SHADOW (R122). -/
  | copyActiveToShadow
  /-- COMMIT (R124). -/
  | commit
  /-- CANCEL COMMIT (R129). -/
  | cancelCommit
  /-- PORT CONTROL (R159). -/
  | portControl
  /-- RETRIEVE RETAINED (R113). -/
  | retrieveRetained
  /-- REQUEUE RETAINED (R114). -/
  | requeueRetained
  /-- FLUSH RETAINED (R116). -/
  | flushRetained
  /-- CLEAR COUNTERS (R155). -/
  | clearCounters
  /-- QUEUE RESET (R162). -/
  | queueReset
  /-- DEVICE RESET (R163). -/
  | deviceReset
  /-- DEVICE_RESET_EFFECT (R164): the drain is complete and the reset takes effect. -/
  | deviceResetEffect
  /-- POWER_ON_HOLD (R165): the supply or the timing reference ceases to be valid. -/
  | powerOnHold
deriving DecidableEq, Repr

end Sys2Proof
end

