-- ==== Sys2Proof/Decode.lean ====
section
/-! DEFINITION. The table gives no row any bits, so no word spells a command. -/

namespace Sys2Proof

/-- No row of spec/opcode_table.json has a pattern of bits (every row's "fields" is empty and none has "fixed"): the
block's commands are events and the requests carried by frames, so no word of any width spells one. -/
def decodeTableWord (_nbits _w : Nat) : Option Instr := none

end Sys2Proof
end

