-- ==== Sys2Proof/Config.lean ====
section
/-! DEFINITION. The fixed sizes of the part. The spec leaves no result value open, so there is no free value here
(notes/assumptions/1.md). -/

namespace Sys2Proof.Config

/-- Frame slots (R60). -/
def slots : Nat := 384
/-- Bytes of one frame slot (R60). -/
def slotBytes : Nat := 512
/-- Descriptors of the pool (R65). -/
def descriptors : Nat := 512
/-- The most descriptors any egress queue holds (R66). -/
def queueCap : Nat := 128
/-- Stream entries of a bank (R38, R119). -/
def streamEntries : Nat := 256
/-- Window entries of a bank (R76, R119). -/
def windowEntries : Nat := 64
/-- Retention records (R110). -/
def retentionRecords : Nat := 32
/-- Places of the request queue (R137). -/
def requestPlaces : Nat := 8
/-- Records of the answered list (R141). -/
def answerRecords : Nat := 8
/-- Conditions and outstanding early operations together (R142, R144). -/
def earlyOperations : Nat := 4
/-- Quanta between two link checks of a port (R9). -/
def linkCheckQuanta : Nat := 12500
/-- Link checks after which a waiting ENABLE fails (R14). -/
def qualificationChecks : Nat := 64
/-- Good link checks in a row that bring a port UP, and bad ones in a row that bring it DOWN (R9). -/
def checksInARow : Nat := 3
/-- Quanta of a SYNC transmission (R34). -/
def syncOccupation : Nat := 440
/-- In-window SYNC frames in a row that lock the servo (R29). -/
def lockCount : Nat := 8
/-- Missed cycle ends that take ACQUIRING to FREE (R30). -/
def acquireMisses : Nat := 16
/-- Missed cycle ends that take LOCKED to HOLDOVER (R30). -/
def lockMisses : Nat := 4
/-- The saturation value of the missed count (R30). -/
def missedMax : Nat := 65535
/-- The bound of the trim (R22). -/
def trimMax : Int := 32767
/-- The most frame bytes RETRIEVE RETAINED returns (R113). -/
def retrieveBytes : Nat := 472
/-- The byte a frame-store address reads as when nothing has written it.
DESIGN CHOICE (notes/assumptions/2.md), unsafe: the spec gives the slots no contents at power-on. -/
def unlistedByte : Byte := 0
/-- The level of the seven ADDR straps in `State.reset`.
DESIGN CHOICE (notes/assumptions/3.md), unsafe: the straps are pins of the board. -/
def resetStraps : BitVec 7 := 0

end Sys2Proof.Config
end

