-- ==== Sys2Proof/Machine/State.lean ====
section
/-! DEFINITION. The state of the block as plain data, one record for each block of the part (00_scope, "Blocks of the
part"), the reasons a step can stop, and the state after reset. -/

namespace Sys2Proof.Machine

open Sys2Proof

/-! ### Codes (12.6) -/

/-- A chain port: A or B (the timing port and the L uplink, 12.4). -/
inductive ChainPort where
  | A | B
deriving DecidableEq, Repr

/-- Port states (R8). -/
inductive PortState where
  | disabled | qualifying | up | down | disabling
deriving DecidableEq, Repr

/-- Sync states of the servo (R29). -/
inductive SyncState where
  | free | acquiring | locked | holdover
deriving DecidableEq, Repr

/-- Actions of a stream entry (R46). -/
inductive Action where
  | forward | drop | retain
deriving DecidableEq, Repr

/-- Routes of a stream entry (R48). -/
inductive Route where
  | port (p : Port)
  | bothOthers
  | default
deriving DecidableEq, Repr

/-- Late policies (R39, R72). -/
inductive LatePolicy where
  | hold | drop | retain
deriving DecidableEq, Repr

/-- Over-budget actions (R47). -/
inductive OverBudget where
  | drop | demote
deriving DecidableEq, Repr

/-- Sequence monitors (R45). -/
inductive Monitor where
  | off | count | discard
deriving DecidableEq, Repr

/-- Unlocked policies (R83). -/
inductive UnlockedPolicy where
  | runLocal | holdScheduled
deriving DecidableEq, Repr

/-- Unmatched actions (R51). -/
inductive UnmatchedAction where
  | drop | forward
deriving DecidableEq, Repr

/-- Retention reasons (R109). -/
inductive Reason where
  | late | portDown | aborted | captured
deriving DecidableEq, Repr

/-- Notice kinds (R146). -/
inductive NoticeKind where
  | syncState | portState | generation | retentionHigh
deriving DecidableEq, Repr

/-- Statuses of a reply (9.10). -/
inductive Status where
  | done | accepted | empty | badRequest | badParameter | refusedBusy | queueFull | duplicatePending
  | commitPending | notPending | tooLate | invalidTables | notSynced | missedRound | linkAbsent
  | cancelled | condition
deriving DecidableEq, Repr

/-! ### Tables (R38, R39, R76, R133) -/

/-- A stream entry, every byte of its image (12.4). Numeric fields are kept as staged (R121). -/
structure StreamEntry where
  valid      : Bool
  ports      : BitVec 3
  kinds      : BitVec 4
  srcAny     : Bool
  dstAny     : Bool
  src        : Byte
  dst        : Byte
  tagLow     : W16
  tagHigh    : W16
  action     : Action
  route      : Route
  cls        : Cls
  late       : LatePolicy
  maxWait    : Byte
  overBudget : OverBudget
  budget     : W16
  maxLength  : W16
  monitor    : Monitor
  capture    : Bool
  spare      : BitVec 80
deriving DecidableEq, Repr

/-- A window entry, every byte of its image (12.4). -/
structure WindowEntry where
  valid      : Bool
  port       : Port
  classes    : BitVec 4
  guarded    : Bool
  exclusive  : Bool
  openOffset : W24
  closeOffset : W24
  indexMatch : Byte
  modulus    : Byte
  residue    : Byte
  spare      : BitVec 24
deriving DecidableEq, Repr

/-- The base record, every byte of its image (12.4). -/
structure BaseRecord where
  cycleLength    : W24
  cyclesPerRound : Byte
  timingPort     : ChainPort
  unlocked       : UnlockedPolicy
  linkDelay      : W16
  lockWindow     : W16
  stepThreshold  : W24
  holdoverLimit  : W16
  scheduled      : Trio (BitVec 4)
  limits         : Trio (Quad Byte)
  mgmtClass      : Byte
  stationCount   : Byte
  stations       : Quad Byte
  unmatched      : UnmatchedAction
  uplink         : ChainPort
  node           : Byte
  managerPresent : Bool
  manager        : Byte
  noticeKinds    : BitVec 4
  noticePort     : Byte
  highMark       : Byte
  spare          : BitVec 160
deriving DecidableEq, Repr

/-- A complete set of tables (R119). -/
structure Bank where
  streams : List StreamEntry
  windows : List WindowEntry
  base    : BaseRecord
deriving DecidableEq, Repr

/-! ### Stamps, frames and descriptors -/

/-- Round, cycle index and position at a reception start (R3). -/
structure Stamp where
  round    : W16
  index    : Nat
  position : Nat
deriving DecidableEq, Repr

/-- The stamp of an arrival: its start part and the cycle count at the reception end (R5). -/
structure ArrivalStamp where
  start      : Stamp
  cycleCount : W32
deriving DecidableEq, Repr

/-- What a descriptor stands for (R64). -/
inductive Origin where
  | stream (index : Byte)
  | unmatched
  | management
deriving DecidableEq, Repr

/-- A descriptor (R64). -/
structure Desc where
  slot    : Nat
  origin  : Origin
  cls     : Cls
  late    : LatePolicy
  maxWait : Option Nat
  stamp   : Option ArrivalStamp
  ingress : Option Port
  length  : Nat
deriving DecidableEq, Repr

/-- The fields of a SYNC frame that the part keeps (R33). -/
structure SyncFrame where
  dst        : Byte
  src        : Byte
  tag        : W16
  sequence   : Byte
  round      : W16
  index      : Byte
  correction : W32
deriving DecidableEq, Repr

/-- A SYNC frame in a SYNC holder, with its arrival quantum (R33). -/
structure HeldSync where
  frame   : SyncFrame
  arrival : Nat
deriving DecidableEq, Repr

/-- What a transmitter sends (R96). -/
inductive Sending where
  | desc (d : Desc)
  | sync (f : SyncFrame)
deriving DecidableEq, Repr

/-- A transmission in flight (R96). `frame` is the bytes put on the wire, with the check computed at the start
(R100, R101). -/
structure Transmission where
  sending    : Sending
  start      : Nat
  occupation : Nat
  frame      : List Byte
deriving DecidableEq, Repr

/-- A reception in progress (R3, R4): the slot it holds, its kind once received, the start part of its stamp, the
reference count at its start, and whether its port was the timing port then (R23). -/
structure Reception where
  slot     : Option Nat
  kind     : Option Byte
  stamp    : Stamp
  start    : Nat
  atTiming : Bool
deriving DecidableEq, Repr

/-- The ten counters of a port, in the order of R16. -/
structure PortCounters where
  received     : W32
  crcErrors    : W32
  lengthErrors : W32
  noBuffer     : W32
  unmatched    : W32
  sent         : W32
  aborted      : W32
  foreignSync  : W32
  syncReplaced : W32
  mgmtLost     : W32
deriving DecidableEq, Repr

/-- A port unit (chapter 1 and R96). `lastCheck` is the reference count of the last link check, or of the reset that
set the port's state (R9); `signalGood` is the pin's level at the last link check. -/
structure PortUnit where
  state      : PortState
  good       : Nat
  bad        : Nat
  qualCount  : Option Nat
  counters   : PortCounters
  holder     : Option HeldSync
  tx         : Option Transmission
  rx         : Option Reception
  lastCheck  : Nat
  signalGood : Bool
deriving DecidableEq, Repr

/-- The cycle timer (chapter 2). The position runs from 0; it equals the effective length only at the quantum of a
cycle end that has not been taken yet (notes/assumptions/6.md). -/
structure Timer where
  position   : Nat
  effLength  : Nat
  index      : Nat
  round      : W16
  cycleCount : W32
  trim       : Int
  residue    : Int
  slew       : Option Int
  sync       : SyncState
  good       : Nat
  missed     : Nat
  used       : Bool
  lastErr    : Int
deriving DecidableEq, Repr

/-- The seven counters of a stream index, in the order of R53. -/
structure StreamCounters where
  matched    : W32
  forwarded  : W32
  dropped    : W32
  late       : W32
  overBudget : W32
  duplicates : W32
  gaps       : W32
deriving DecidableEq, Repr

/-- The per-stream state of one index (3.6). -/
structure StreamState where
  counters    : StreamCounters
  stamp       : Option Stamp
  budgetUsed  : Nat
  expectation : Option Byte
deriving DecidableEq, Repr

/-- The frame store (R60, R61): slot contents, reference counts and the free list. The byte at offset `o` of slot `n`
has address `512 * n + o`. -/
structure FrameStore where
  mem   : List Host.Cell
  count : List Nat
  free  : List Nat
deriving DecidableEq, Repr

/-- Where an open window closes (R78). -/
inductive ClosePoint where
  | at (position : Nat)
  | cycleEnd
deriving DecidableEq, Repr

/-- An open-window record (R78). -/
structure OpenWindow where
  index     : Nat
  classes   : BitVec 4
  guarded   : Bool
  exclusive : Bool
  close     : ClosePoint
deriving DecidableEq, Repr

/-- The gate controller's state for one port (chapter 5). -/
structure GateUnit where
  windows : List OpenWindow
  gate    : Quad Bool
  bound   : Quad (Option Nat)
deriving DecidableEq, Repr

/-- A retention record (R109). -/
structure Record where
  slot    : Nat
  reason  : Reason
  stream  : Byte
  ingress : Port
  egress  : Option Port
  cls     : Cls
  maxWait : Option Nat
  stamp   : Stamp
  length  : Nat
deriving DecidableEq, Repr

/-- The retention queue (chapter 7). -/
structure Retention where
  records  : List Record
  overflow : W32
deriving DecidableEq, Repr

/-- The target of a commit (R124). -/
inductive Target where
  | nextRound
  | atRound (r : W16)
deriving DecidableEq, Repr

/-- The commit slot's contents (R123, R142). -/
structure Commit where
  requester : Byte
  tag       : W16
  ingress   : Port
  early     : Bool
  target    : Target
  slot      : Option Nat
deriving DecidableEq, Repr

/-- Generation control (chapter 8). The commit state is PENDING exactly when the commit slot is occupied (R123). -/
structure Generation where
  active : Bank
  shadow : Bank
  number : W16
  commit : Option Commit
deriving DecidableEq, Repr

/-- The operations of PORT CONTROL (R159). -/
inductive PortOp where
  | enable | disable
deriving DecidableEq, Repr

/-- A port-control slot's contents (R142). -/
structure PortControl where
  requester : Byte
  tag       : W16
  ingress   : Port
  early     : Bool
  op        : PortOp
  slot      : Option Nat
deriving DecidableEq, Repr

/-- A request record (R138). -/
structure Request where
  slot      : Nat
  requester : Byte
  tag       : W16
  kind      : Byte
  flags     : Byte
  ingress   : Port
  length    : Nat
deriving DecidableEq, Repr

/-- The engine's state (R139). The current request carries the outcome of the take's condition test. -/
inductive Engine where
  | idle
  | executing (req : Request) (conditionHeld : Bool)
  | stopped
deriving DecidableEq, Repr

/-- A record of the answered list (R141). -/
structure Answer where
  requester : Byte
  tag       : W16
  kind      : Byte
  status    : Status
deriving DecidableEq, Repr

/-- The detail of a condition (R144). -/
inductive Detail where
  | round (r : W16)
  | port (p : Port)
deriving DecidableEq, Repr

/-- A condition-table entry (R144). -/
structure Condition where
  requester : Byte
  tag       : W16
  kind      : Byte
  status    : Status
  detail    : Detail
  further   : Nat
deriving DecidableEq, Repr

/-- The pending mark and coalesce count of a notice kind (R146). -/
structure NoticeMark where
  pending : Bool
  count   : Nat
deriving DecidableEq, Repr

/-- The DEVICE RESET drain (R106): the queue its reply was accepted into, if it was, and the reply's slot. -/
structure Drain where
  queue : Option (Port × Cls)
  slot  : Nat
deriving DecidableEq, Repr

/-- The management engine (chapter 9). `notices` holds SYNC_STATE, PORT_STATE, GENERATION and RETENTION_HIGH in its
places 0 to 3. -/
structure Management where
  requests    : List Request
  engine      : Engine
  answered    : List Answer
  portControl : Trio (Option PortControl)
  conditions  : List Condition
  notices     : Quad NoticeMark
  noticeSeq   : Byte
  epoch       : Byte
  drain       : Option Drain
deriving DecidableEq, Repr

/-- Where the part stands with its resets (R165, R166). -/
inductive Power where
  /-- In the power-on reset hold, with RESET_N low or high. -/
  | hold (resetLow : Bool)
  /-- Released from the hold with RESET_N low: the next rise is the power-on event. -/
  | awaitRise
  /-- Out of reset. -/
  | running
  /-- RESET_N is low, while out of power-on reset. -/
  | resetLow
deriving DecidableEq, Repr

/-- The whole block. `opportunities` marks the start opportunities raised inside a command and not taken yet: every
command takes them before it ends. The commands that wait are `pending`, first in, first out. -/
structure State where
  power         : Power
  straps        : BitVec 7
  refCount      : Nat
  ports         : Trio PortUnit
  timer         : Timer
  streams       : List StreamState
  store         : FrameStore
  queues        : Trio (Quad (List Desc))
  gates         : Trio GateUnit
  retention     : Retention
  gen           : Generation
  mgmt          : Management
  opportunities : Trio Bool
  pending       : List Instr
deriving DecidableEq, Repr

/-- The reasons a step can end in a fault. -/
inductive Fault where
  /-- Raised by no command: the spec describes no stop of the part. It stands so that the type has a value. -/
  | noFault
deriving DecidableEq, Repr

/-- The reasons a step can be refused. -/
inductive Refusal where
  /-- A command whose meaning is not written. Safe; no arm of `exec` answers it. -/
  | notModelled (mnemonic : String)
deriving DecidableEq, Repr

/-! ### Values after reset -/

/-- All ten port counters at 0 (R17). -/
def PortCounters.zero : PortCounters := ⟨0, 0, 0, 0, 0, 0, 0, 0, 0, 0⟩

/-- All seven stream counters at 0 (R58). -/
def StreamCounters.zero : StreamCounters := ⟨0, 0, 0, 0, 0, 0, 0⟩

/-- The per-stream state after a reset (R58). -/
def StreamState.initial : StreamState :=
  { counters := StreamCounters.zero, stamp := none, budgetUsed := 0, expectation := none }

/-- An invalid stream entry with every other field 0 (R133). -/
def StreamEntry.blank : StreamEntry :=
  { valid := false, ports := 0, kinds := 0, srcAny := false, dstAny := false, src := 0, dst := 0
    tagLow := 0, tagHigh := 0, action := .forward, route := .port .A, cls := 0, late := .hold
    maxWait := 0, overBudget := .drop, budget := 0, maxLength := 0, monitor := .off
    capture := false, spare := 0 }

/-- An invalid window entry with every other field 0 (R133). -/
def WindowEntry.blank : WindowEntry :=
  { valid := false, port := .A, classes := 0, guarded := false, exclusive := false, openOffset := 0
    closeOffset := 0, indexMatch := 0, modulus := 0, residue := 0, spare := 0 }

/-- The default base record with a given strap value (R133). -/
def BaseRecord.initial (straps : BitVec 7) : BaseRecord :=
  { cycleLength := 125000, cyclesPerRound := 8, timingPort := .A, unlocked := .runLocal
    linkDelay := 0, lockWindow := 16, stepThreshold := 250, holdoverLimit := 1000
    scheduled := Trio.all 0, limits := Trio.all (Quad.all 32), mgmtClass := 2
    stationCount := 0, stations := Quad.all 0, unmatched := .forward, uplink := .A
    node := straps.setWidth 8, managerPresent := false, manager := 0, noticeKinds := 0
    noticePort := 0, highMark := 24, spare := 0 }

/-- The default bank (R133). -/
def Bank.initial (straps : BitVec 7) : Bank :=
  { streams := List.replicate Config.streamEntries StreamEntry.blank
    windows := List.replicate Config.windowEntries WindowEntry.blank
    base := BaseRecord.initial straps }

/-- The cycle timer after a reset (R36). -/
def Timer.initial : Timer :=
  { position := 0, effLength := 125000, index := 0, round := 0, cycleCount := 0, trim := 0
    residue := 0, slew := none, sync := .free, good := 0, missed := 0, used := false, lastErr := 0 }

/-- A port unit after a reset (R15): its state and the reference count of the reset are given. -/
def PortUnit.initial (st : PortState) (now : Nat) (signal : Bool) : PortUnit :=
  { state := st, good := 0, bad := 0, qualCount := none, counters := PortCounters.zero
    holder := none, tx := none, rx := none, lastCheck := now, signalGood := signal }

/-- The gates of a port after a reset (R94). -/
def GateUnit.initial : GateUnit :=
  { windows := [], gate := Quad.all true, bound := Quad.all none }

/-- The frame store after a reset: the contents stay, every slot is free (R74). -/
def FrameStore.initial (mem : List Host.Cell) : FrameStore :=
  { mem := mem, count := List.replicate Config.slots 0, free := List.range Config.slots }

/-- Generation control after a reset (R132, R133). -/
def Generation.initial (straps : BitVec 7) : Generation :=
  { active := Bank.initial straps, shadow := Bank.initial straps, number := 0, commit := none }

/-- The management engine after a reset, with a given epoch (R150). -/
def Management.initial (epoch : Byte) : Management :=
  { requests := [], engine := .idle, answered := [], portControl := Trio.all none
    conditions := [], notices := Quad.all ⟨false, 0⟩, noticeSeq := 0, epoch := epoch, drain := none }

/-- The machine right after reset: the state that a power-on event leaves (R165), with nothing in the frame store, a
reference count of 0 and the straps of `Config.resetStraps`. -/
def State.reset : State :=
  { power := .running
    straps := Config.resetStraps
    refCount := 0
    ports := Trio.all (PortUnit.initial .qualifying 0 false)
    timer := Timer.initial
    streams := List.replicate Config.streamEntries StreamState.initial
    store := FrameStore.initial []
    queues := Trio.all (Quad.all [])
    gates := Trio.all GateUnit.initial
    retention := ⟨[], 0⟩
    gen := Generation.initial Config.resetStraps
    mgmt := Management.initial 1
    opportunities := Trio.all false
    pending := [] }

end Sys2Proof.Machine
end

