-- ==== Sys2Proof/Machine/Operands.lean ====
section
/-! DEFINITION. The byte layouts of chapter 12: numbers in bytes, codes, frames, table images, record headers, and the
frame check. -/

namespace Sys2Proof.Machine

open Sys2Proof

/-! ### Numbers in bytes: most significant byte first (12_formats) -/

/-- The number that a list of bytes spells, most significant byte first. -/
def beNat (bs : List Byte) : Nat := bs.foldl (fun acc b => acc * 256 + b.toNat) 0

/-- The lowest `k` bytes of `n`, most significant byte first. -/
def beBytes : (k : Nat) → (n : Nat) → List Byte
  | 0, _ => []
  | k + 1, n => BitVec.ofNat 8 (n / 256 ^ k) :: beBytes k n

/-- The two's complement form of a signed field of `k` bytes (12_formats). -/
def signedBytes (k : Nat) (n : Int) : List Byte := beBytes k (n % (256 ^ k : Nat)).toNat

/-- The byte at offset `i` of a frame or image; an offset past its end reads as 0. -/
def byteAt (bs : List Byte) (i : Nat) : Byte := bs.getD i 0

/-- The number in the `k` bytes at offset `i`. -/
def numAt (bs : List Byte) (i k : Nat) : Nat := beNat ((bs.drop i).take k)

/-- A flag as a byte: 01h when it holds. -/
def flagByte (b : Bool) : Byte := if b then 1 else 0

/-! ### Codes (12.6) -/

/-- The code of a port. -/
def portCode : Port → Byte
  | .A => 0
  | .B => 1
  | .L => 2

/-- The port of a code. -/
def portOfCode (b : Byte) : Option Port :=
  if b = 0 then some .A else if b = 1 then some .B else if b = 2 then some .L else none

/-- The code of a chain port (12.4). -/
def chainPortCode : ChainPort → Byte
  | .A => 0
  | .B => 1

/-- The port that a chain port names. -/
def ChainPort.toPort : ChainPort → Port
  | .A => .A
  | .B => .B

/-- The code of a port state. -/
def portStateCode : PortState → Byte
  | .disabled => 0
  | .qualifying => 1
  | .up => 2
  | .down => 3
  | .disabling => 4

/-- The code of a sync state. -/
def syncStateCode : SyncState → Byte
  | .free => 0
  | .acquiring => 1
  | .locked => 2
  | .holdover => 3

/-- The code of an action. -/
def actionCode : Action → Byte
  | .forward => 0
  | .drop => 1
  | .retain => 2

/-- The code of a route. -/
def routeCode : Route → Byte
  | .port .A => 0
  | .port .B => 1
  | .port .L => 2
  | .bothOthers => 3
  | .default => 4

/-- The code of a late policy. -/
def latePolicyCode : LatePolicy → Byte
  | .hold => 0
  | .drop => 1
  | .retain => 2

/-- The code of an over-budget action. -/
def overBudgetCode : OverBudget → Byte
  | .drop => 0
  | .demote => 1

/-- The code of a sequence monitor. -/
def monitorCode : Monitor → Byte
  | .off => 0
  | .count => 1
  | .discard => 2

/-- The code of an unlocked policy (12.4). -/
def unlockedCode : UnlockedPolicy → Byte
  | .runLocal => 0
  | .holdScheduled => 1

/-- The code of an unmatched action (12.4). -/
def unmatchedCode : UnmatchedAction → Byte
  | .drop => 0
  | .forward => 1

/-- The code of a retention reason. -/
def reasonCode : Reason → Byte
  | .late => 0
  | .portDown => 1
  | .aborted => 2
  | .captured => 3

/-- The code of a status. -/
def statusCode : Status → Byte
  | .done => 0x00
  | .accepted => 0x01
  | .empty => 0x02
  | .badRequest => 0x03
  | .badParameter => 0x04
  | .refusedBusy => 0x05
  | .queueFull => 0x06
  | .duplicatePending => 0x07
  | .commitPending => 0x08
  | .notPending => 0x09
  | .tooLate => 0x0A
  | .invalidTables => 0x0B
  | .notSynced => 0x0C
  | .missedRound => 0x0D
  | .linkAbsent => 0x0E
  | .cancelled => 0x0F
  | .condition => 0x10

/-- The code of a PORT CONTROL operation (12.2). -/
def portOpCode : PortOp → Byte
  | .enable => 0
  | .disable => 1

/-- The place of a notice kind, which is its code (12.6) and its bit in the notice kinds byte (12.4). -/
def NoticeKind.place : NoticeKind → Cls
  | .syncState => 0
  | .portState => 1
  | .generation => 2
  | .retentionHigh => 3

/-- The frame kind codes (12.6). -/
def kindData : Byte := 0x01
/-- The frame kind code of SYNC. -/
def kindSync : Byte := 0x02
/-- The frame kind code of REQUEST. -/
def kindRequest : Byte := 0x03
/-- The frame kind code of REPLY. -/
def kindReply : Byte := 0x04
/-- The frame kind code of NOTICE. -/
def kindNotice : Byte := 0x05

/-- Whether a byte is one of the five frame kind codes (R5, check 4). -/
def isFrameKind (b : Byte) : Bool := decide (1 ≤ b.toNat) && decide (b.toNat ≤ 5)

/-- Whether a byte is one of the eighteen request kind codes (R171). -/
def isRequestKind (b : Byte) : Bool := decide (1 ≤ b.toNat) && decide (b.toNat ≤ 0x12)

/-- The max wait a byte codes: FFh is NONE (12.4, 12.5). -/
def maxWaitOf (b : Byte) : Option Nat := if b = 0xFF then none else some b.toNat

/-- The byte of a max wait (12.5). -/
def maxWaitByte : Option Nat → Byte
  | none => 0xFF
  | some n => BitVec.ofNat 8 n

/-! ### The frame check (R169) -/

/-- One bit of the CRC: generator polynomial 04C11DB7h. -/
def crcBit (reg : W32) (bit : Bool) : W32 :=
  if (reg.msb ^^ bit) then (reg <<< 1) ^^^ 0x04C11DB7 else reg <<< 1

/-- One byte of the CRC, least significant bit first. -/
def crcByte (reg : W32) (b : Byte) : W32 :=
  (List.range 8).foldl (fun r i => crcBit r (b.getLsbD i)) reg

/-- The 32 bits of a word in the opposite order. -/
def reverse32 (w : W32) : W32 :=
  (List.range 32).foldl (fun r i => (r <<< 1) ||| (if w.getLsbD i then 1 else 0)) 0

/-- The frame check over some bytes (R169). -/
def crc32 (bs : List Byte) : W32 := reverse32 (bs.foldl crcByte 0xFFFFFFFF) ^^^ 0xFFFFFFFF

/-- The four bytes of the frame check over some bytes. -/
def checkBytes (bs : List Byte) : List Byte := beBytes 4 (crc32 bs).toNat

/-- A frame with its check computed afresh: its last four bytes are replaced (R100). -/
def recheck (bs : List Byte) : List Byte :=
  bs.take (bs.length - 4) ++ checkBytes (bs.take (bs.length - 4))

/-! ### Frame fields (12.1, 12.2, 12.3) -/

/-- The destination node of a frame. -/
def frameDst (bs : List Byte) : Byte := byteAt bs 0x00
/-- The source node of a frame. -/
def frameSrc (bs : List Byte) : Byte := byteAt bs 0x01
/-- The kind field of a frame. -/
def frameKind (bs : List Byte) : Byte := byteAt bs 0x02
/-- The sequence field of a frame. -/
def frameSeq (bs : List Byte) : Byte := byteAt bs 0x03
/-- The stream tag of a frame. -/
def frameTag (bs : List Byte) : W16 := BitVec.ofNat 16 (numAt bs 0x04 2)
/-- The length field of a frame. -/
def frameLength (bs : List Byte) : Nat := numAt bs 0x06 2

/-- The 16 header bytes of a frame the part builds; the header extension is zeros (R169). -/
def headerBytes (dst src kind seq : Byte) (tag : W16) (length : Nat) : List Byte :=
  [dst, src, kind, seq] ++ beBytes 2 tag.toNat ++ beBytes 2 length ++ beBytes 8 0

/-- The SYNC fields of a received frame (12.1). -/
def parseSync (bs : List Byte) : SyncFrame :=
  { dst := frameDst bs, src := frameSrc bs, tag := frameTag bs, sequence := frameSeq bs
    round := BitVec.ofNat 16 (numAt bs 0x10 2), index := byteAt bs 0x12
    correction := BitVec.ofNat 32 (numAt bs 0x13 4) }

/-- The bytes of a SYNC frame as the part sends it (R34, R169). -/
def syncBytes (f : SyncFrame) : List Byte :=
  recheck (headerBytes f.dst f.src kindSync f.sequence f.tag 32 ++ beBytes 2 f.round.toNat ++ [f.index] ++
    beBytes 4 f.correction.toNat ++ beBytes 5 0 ++ beBytes 4 0)

/-- What a reply carries (R136). -/
structure Reply where
  requester : Byte
  streamTag : W16
  sequence  : Byte
  tag       : W16
  kind      : Byte
  status    : Status
  isRepeat  : Bool
  isCond    : Bool
  residue   : Nat
  data      : List Byte
deriving DecidableEq, Repr

/-- The length of a reply frame with so many bytes of data (R136, R169). -/
def replyLength (r : Reply) : Nat := max 32 (30 + r.data.length)

/-- The bytes of a reply frame (R136, 12.2). The check is left zero here: it is computed when the frame is sent
(R100). -/
def replyBytes (r : Reply) (node epoch : Byte) (generation : W16) : List Byte :=
  headerBytes r.requester node kindReply r.sequence r.streamTag (replyLength r) ++ beBytes 2 r.tag.toNat ++
    [r.kind, statusCode r.status, flagByte r.isRepeat ||| (flagByte r.isCond <<< 1), epoch] ++
    beBytes 2 generation.toNat ++ beBytes 2 r.residue ++ r.data ++
    List.replicate (replyLength r - 26 - r.data.length) 0

/-- The bytes of a notice frame (R147, 12.3), its check left zero. -/
def noticeBytes (dst src seq : Byte) (kind : NoticeKind) (count : Nat) (epoch : Byte) (value : List Byte) :
    List Byte :=
  headerBytes dst src kindNotice seq 0 32 ++
    [BitVec.ofNat 8 kind.place.val, BitVec.ofNat 8 count, epoch] ++ (value ++ List.replicate (4 - value.length) 0) ++
    List.replicate 9 0

/-! ### Retention record header (12.5) -/

/-- The ten bytes of a retention record header. -/
def recordHeader (r : Record) : List Byte :=
  [(reasonCode r.reason <<< 4) ||| BitVec.ofNat 8 r.cls.val, r.stream,
    (portCode r.ingress <<< 4) ||| (match r.egress with | none => 0x0F | some p => portCode p),
    maxWaitByte r.maxWait] ++ beBytes 2 r.stamp.round.toNat ++ [BitVec.ofNat 8 r.stamp.index] ++
    beBytes 3 r.stamp.position

/-! ### Table images (12.4) -/

/-- The bytes of a stream entry image. -/
def streamImage (e : StreamEntry) : List Byte :=
  [flagByte e.valid, e.ports.setWidth 8, e.kinds.setWidth 8,
    flagByte e.srcAny ||| (flagByte e.dstAny <<< 1), e.src, e.dst] ++
    beBytes 2 e.tagLow.toNat ++ beBytes 2 e.tagHigh.toNat ++
    [actionCode e.action, routeCode e.route, BitVec.ofNat 8 e.cls.val, latePolicyCode e.late, e.maxWait,
      overBudgetCode e.overBudget] ++ beBytes 2 e.budget.toNat ++ beBytes 2 e.maxLength.toNat ++
    [monitorCode e.monitor, flagByte e.capture] ++ beBytes 10 e.spare.toNat

/-- The bytes of a window entry image. -/
def windowImage (w : WindowEntry) : List Byte :=
  [flagByte w.valid, portCode w.port, w.classes.setWidth 8,
    flagByte w.guarded ||| (flagByte w.exclusive <<< 1)] ++
    beBytes 3 w.openOffset.toNat ++ beBytes 3 w.closeOffset.toNat ++
    [w.indexMatch, w.modulus, w.residue] ++ beBytes 3 w.spare.toNat

/-- The bytes of a base record image. -/
def baseImage (b : BaseRecord) : List Byte :=
  beBytes 3 b.cycleLength.toNat ++ [b.cyclesPerRound, chainPortCode b.timingPort, unlockedCode b.unlocked] ++
    beBytes 2 b.linkDelay.toNat ++ beBytes 2 b.lockWindow.toNat ++ beBytes 3 b.stepThreshold.toNat ++
    beBytes 2 b.holdoverLimit.toNat ++
    [b.scheduled.A.setWidth 8, b.scheduled.B.setWidth 8, b.scheduled.L.setWidth 8] ++
    b.limits.A.toList ++ b.limits.B.toList ++ b.limits.L.toList ++
    [b.mgmtClass, b.stationCount] ++ b.stations.toList ++
    [unmatchedCode b.unmatched, chainPortCode b.uplink, b.node, flagByte b.managerPresent, b.manager,
      b.noticeKinds.setWidth 8, b.noticePort, b.highMark] ++ beBytes 20 b.spare.toNat

/-- Whether a byte is at most `n`. -/
def byteLe (b : Byte) (n : Nat) : Bool := decide (b.toNat ≤ n)

/-- The encoding check of a stream entry image (R170). -/
def streamEncodingOk (bs : List Byte) : Bool :=
  byteLe (byteAt bs 0x00) 1 && byteLe (byteAt bs 0x01) 7 && byteLe (byteAt bs 0x02) 15 &&
  byteLe (byteAt bs 0x03) 3 && byteLe (byteAt bs 0x0A) 2 && byteLe (byteAt bs 0x0B) 4 &&
  byteLe (byteAt bs 0x0C) 3 && byteLe (byteAt bs 0x0D) 2 && byteLe (byteAt bs 0x0F) 1 &&
  byteLe (byteAt bs 0x14) 2 && byteLe (byteAt bs 0x15) 1

/-- The encoding check of a window entry image (R170). -/
def windowEncodingOk (bs : List Byte) : Bool :=
  byteLe (byteAt bs 0x00) 1 && byteLe (byteAt bs 0x01) 2 && byteLe (byteAt bs 0x02) 15 &&
  byteLe (byteAt bs 0x03) 3

/-- The encoding check of a base record image (R170). -/
def baseEncodingOk (bs : List Byte) : Bool :=
  byteLe (byteAt bs 0x04) 1 && byteLe (byteAt bs 0x05) 1 && byteLe (byteAt bs 0x0F) 15 &&
  byteLe (byteAt bs 0x10) 15 && byteLe (byteAt bs 0x11) 15 && byteLe (byteAt bs 0x24) 1 &&
  byteLe (byteAt bs 0x25) 1 && byteLe (byteAt bs 0x27) 1 && byteLe (byteAt bs 0x29) 15

/-- The class of a code; only its two lowest bits are read. -/
def clsOfByte (b : Byte) : Cls := ⟨b.toNat % 4, Nat.mod_lt _ (by decide)⟩

/-- The stream entry of an image that passes its encoding check. -/
def streamOfImage (bs : List Byte) : StreamEntry :=
  { valid := byteAt bs 0x00 == 1
    ports := (byteAt bs 0x01).setWidth 3
    kinds := (byteAt bs 0x02).setWidth 4
    srcAny := (byteAt bs 0x03).getLsbD 0
    dstAny := (byteAt bs 0x03).getLsbD 1
    src := byteAt bs 0x04
    dst := byteAt bs 0x05
    tagLow := BitVec.ofNat 16 (numAt bs 0x06 2)
    tagHigh := BitVec.ofNat 16 (numAt bs 0x08 2)
    action := if byteAt bs 0x0A = 0 then .forward else if byteAt bs 0x0A = 1 then .drop else .retain
    route :=
      if byteAt bs 0x0B = 0 then .port .A else if byteAt bs 0x0B = 1 then .port .B
      else if byteAt bs 0x0B = 2 then .port .L else if byteAt bs 0x0B = 3 then .bothOthers else .default
    cls := clsOfByte (byteAt bs 0x0C)
    late := if byteAt bs 0x0D = 0 then .hold else if byteAt bs 0x0D = 1 then .drop else .retain
    maxWait := byteAt bs 0x0E
    overBudget := if byteAt bs 0x0F = 0 then .drop else .demote
    budget := BitVec.ofNat 16 (numAt bs 0x10 2)
    maxLength := BitVec.ofNat 16 (numAt bs 0x12 2)
    monitor := if byteAt bs 0x14 = 0 then .off else if byteAt bs 0x14 = 1 then .count else .discard
    capture := byteAt bs 0x15 == 1
    spare := BitVec.ofNat 80 (numAt bs 0x16 10) }

/-- The window entry of an image that passes its encoding check. -/
def windowOfImage (bs : List Byte) : WindowEntry :=
  { valid := byteAt bs 0x00 == 1
    port := if byteAt bs 0x01 = 0 then .A else if byteAt bs 0x01 = 1 then .B else .L
    classes := (byteAt bs 0x02).setWidth 4
    guarded := (byteAt bs 0x03).getLsbD 0
    exclusive := (byteAt bs 0x03).getLsbD 1
    openOffset := BitVec.ofNat 24 (numAt bs 0x04 3)
    closeOffset := BitVec.ofNat 24 (numAt bs 0x07 3)
    indexMatch := byteAt bs 0x0A
    modulus := byteAt bs 0x0B
    residue := byteAt bs 0x0C
    spare := BitVec.ofNat 24 (numAt bs 0x0D 3) }

/-- Four bytes from offset `i` on. -/
def quadAt (bs : List Byte) (i : Nat) : Quad Byte :=
  ⟨byteAt bs i, byteAt bs (i + 1), byteAt bs (i + 2), byteAt bs (i + 3)⟩

/-- The base record of an image that passes its encoding check. -/
def baseOfImage (bs : List Byte) : BaseRecord :=
  { cycleLength := BitVec.ofNat 24 (numAt bs 0x00 3)
    cyclesPerRound := byteAt bs 0x03
    timingPort := if byteAt bs 0x04 = 0 then .A else .B
    unlocked := if byteAt bs 0x05 = 0 then .runLocal else .holdScheduled
    linkDelay := BitVec.ofNat 16 (numAt bs 0x06 2)
    lockWindow := BitVec.ofNat 16 (numAt bs 0x08 2)
    stepThreshold := BitVec.ofNat 24 (numAt bs 0x0A 3)
    holdoverLimit := BitVec.ofNat 16 (numAt bs 0x0D 2)
    scheduled :=
      ⟨(byteAt bs 0x0F).setWidth 4, (byteAt bs 0x10).setWidth 4, (byteAt bs 0x11).setWidth 4⟩
    limits := ⟨quadAt bs 0x12, quadAt bs 0x16, quadAt bs 0x1A⟩
    mgmtClass := byteAt bs 0x1E
    stationCount := byteAt bs 0x1F
    stations := quadAt bs 0x20
    unmatched := if byteAt bs 0x24 = 0 then .drop else .forward
    uplink := if byteAt bs 0x25 = 0 then .A else .B
    node := byteAt bs 0x26
    managerPresent := byteAt bs 0x27 == 1
    manager := byteAt bs 0x28
    noticeKinds := (byteAt bs 0x29).setWidth 4
    noticePort := byteAt bs 0x2A
    highMark := byteAt bs 0x2B
    spare := BitVec.ofNat 160 (numAt bs 0x2C 20) }

end Sys2Proof.Machine
end

