-- ==== Sys2Proof/Machine/Ops.lean ====
section
/-! DEFINITION. The shared operations over the blocks' state: the frame store's bytes, slots and free list, the port
units and their counters, the egress queues and the descriptor pool, the stream counters and the start opportunities. -/

namespace Sys2Proof.Machine

open Sys2Proof

/-! ### The frame store's bytes

The byte at offset `o` of slot `n` has address `512 * n + o`. The cells are listed by rising address, and no cell holds
what an unlisted address reads as. -/

/-- The address of the first byte of a slot. -/
def slotBase (n : Nat) : Nat := Config.slotBytes * n

/-- Reads one byte of the frame store. -/
def readByte (m : List Host.Cell) (a : Nat) : Byte :=
  match m.find? (fun c => c.1 == a) with
  | some c => c.2
  | none => Config.unlistedByte

/-- Reads `n` bytes of the frame store from address `a` on. -/
def readBytes (m : List Host.Cell) (a n : Nat) : List Byte := (List.range n).map fun i => readByte m (a + i)

/-- The cells that some bytes take from address `a` on; a byte that an unlisted address reads as takes none. -/
def cellsOf : (a : Nat) → List Byte → List Host.Cell
  | _, [] => []
  | a, b :: bs => if b = Config.unlistedByte then cellsOf (a + 1) bs else (a, b) :: cellsOf (a + 1) bs

/-- Writes bytes into the frame store from address `a` on. -/
def writeBytes (m : List Host.Cell) (a : Nat) (bs : List Byte) : List Host.Cell :=
  m.filter (fun c => decide (c.1 < a)) ++ cellsOf a bs ++ m.filter (fun c => decide (a + bs.length ≤ c.1))

/-- The canonical form of the frame store's contents: addresses strictly rising, all below the end of the last slot,
and no cell that holds what an unlisted address reads as. -/
def memWf (m : List Host.Cell) : Bool :=
  decide (m.Pairwise fun x y => x.1 < y.1) &&
    m.all fun c => decide (c.1 < Config.slots * Config.slotBytes) && decide (c.2 ≠ Config.unlistedByte)

/-- The first `n` bytes of a slot (R60). -/
def State.slotBytes (s : State) (slot n : Nat) : List Byte := readBytes s.store.mem (slotBase slot) n

/-- Writes bytes into a slot from its first byte on; a slot stores up to 512 bytes and there are 384 slots (R60). -/
def State.writeSlot (s : State) (slot : Nat) (bs : List Byte) : State :=
  if slot < Config.slots then
    { s with store := { s.store with
        mem := writeBytes s.store.mem (slotBase slot) (bs.take Config.slotBytes) } }
  else s

/-! ### Slots and the free list (R60 to R63) -/

/-- The reference count of a slot (R60). -/
def State.slotCount (s : State) (slot : Nat) : Nat := s.store.count.getD slot 0

/-- Sets the reference count of a slot. -/
def FrameStore.setCount (f : FrameStore) (slot n : Nat) : FrameStore := { f with count := f.count.set slot n }

/-- Takes the slot at the head of the free list and gives it one holder; none when the list is empty (R61). -/
def State.takeSlot (s : State) : Option Nat × State :=
  match s.store.free with
  | [] => (none, s)
  | n :: rest => (some n, { s with store := { s.store with free := rest, count := s.store.count.set n 1 } })

/-- Releases one hold on a slot: its count decreases by one, and at 0 it joins the tail of the free list (R63). -/
def State.releaseSlot (s : State) (slot : Nat) : State :=
  match s.slotCount slot with
  | 0 => s
  | 1 => { s with store := { s.store.setCount slot 0 with free := s.store.free ++ [slot] } }
  | n + 2 => { s with store := s.store.setCount slot (n + 1) }

/-- Releases a slot if there is one. -/
def State.releaseSlot? (s : State) : Option Nat → State
  | none => s
  | some slot => s.releaseSlot slot

/-- Fixes the reference count of a slot at the number of holders a classification made (R50): with none, the slot is
released to the tail of the free list. -/
def State.settleSlot (s : State) (slot holders : Nat) : State :=
  match holders with
  | 0 => s.releaseSlot slot
  | n + 1 => { s with store := s.store.setCount slot (n + 1) }

/-! ### Port units -/

/-- The port unit of a port. -/
def State.port (s : State) (p : Port) : PortUnit := s.ports.get p

/-- Changes the port unit of a port. -/
def State.modPort (s : State) (p : Port) (f : PortUnit → PortUnit) : State :=
  { s with ports := s.ports.set p (f (s.ports.get p)) }

/-- Changes the counters of a port (R16). -/
def State.countPort (s : State) (p : Port) (f : PortCounters → PortCounters) : State :=
  s.modPort p fun u => { u with counters := f u.counters }

/-- Frames received + 1. -/
def PortCounters.incReceived (c : PortCounters) : PortCounters := { c with received := c.received + 1 }
/-- CRC errors + 1. -/
def PortCounters.incCrcErrors (c : PortCounters) : PortCounters := { c with crcErrors := c.crcErrors + 1 }
/-- Length errors + 1. -/
def PortCounters.incLengthErrors (c : PortCounters) : PortCounters := { c with lengthErrors := c.lengthErrors + 1 }
/-- No-buffer + 1. -/
def PortCounters.incNoBuffer (c : PortCounters) : PortCounters := { c with noBuffer := c.noBuffer + 1 }
/-- Unmatched + 1. -/
def PortCounters.incUnmatched (c : PortCounters) : PortCounters := { c with unmatched := c.unmatched + 1 }
/-- Frames sent + 1. -/
def PortCounters.incSent (c : PortCounters) : PortCounters := { c with sent := c.sent + 1 }
/-- Aborted + 1. -/
def PortCounters.incAborted (c : PortCounters) : PortCounters := { c with aborted := c.aborted + 1 }
/-- Foreign SYNC + 1. -/
def PortCounters.incForeignSync (c : PortCounters) : PortCounters := { c with foreignSync := c.foreignSync + 1 }
/-- SYNC replaced + 1. -/
def PortCounters.incSyncReplaced (c : PortCounters) : PortCounters := { c with syncReplaced := c.syncReplaced + 1 }
/-- Management frames lost + 1. -/
def PortCounters.incMgmtLost (c : PortCounters) : PortCounters := { c with mgmtLost := c.mgmtLost + 1 }

/-- Whether a port is UP. -/
def State.isUp (s : State) (p : Port) : Bool := decide ((s.port p).state = .up)

/-- Empties the SYNC holder of a port, uncounted (R33). -/
def State.emptyHolder (s : State) (p : Port) : State := s.modPort p fun u => { u with holder := none }

/-- The two ports other than a port, in port order. -/
def otherPorts : Port → List Port
  | .A => [.B, .L]
  | .B => [.A, .L]
  | .L => [.A, .B]

/-- The three ports in port order. -/
def allPorts : List Port := [.A, .B, .L]

/-- The four classes in class order. -/
def allClasses : List Cls := [0, 1, 2, 3]

/-- A reception in progress is abandoned: its slot is released, and no counter changes (R7). -/
def State.abandonReception (s : State) (p : Port) : State :=
  match (s.port p).rx with
  | none => s
  | some rx => (s.modPort p fun u => { u with rx := none }).releaseSlot? rx.slot

/-! ### The active bank (R119) -/

/-- The active base record. -/
def State.base (s : State) : BaseRecord := s.gen.active.base

/-- The timing port of the active base record. -/
def State.timingPort (s : State) : Port := s.base.timingPort.toPort

/-- The management class of the active base record. -/
def State.mgmtClass (s : State) : Cls := clsOfByte s.base.mgmtClass

/-! ### Queues and the descriptor pool (R65, R66) -/

/-- The egress queue of a port and class, head first. -/
def State.egress (s : State) (p : Port) (c : Cls) : List Desc := (s.queues.get p).get c

/-- Replaces an egress queue. -/
def State.setEgress (s : State) (p : Port) (c : Cls) (q : List Desc) : State :=
  { s with queues := s.queues.set p ((s.queues.get p).set c q) }

/-- Whether a transmission carries a descriptor. -/
def Transmission.hasDesc (t : Transmission) : Bool :=
  match t.sending with
  | .desc _ => true
  | .sync _ => false

/-- The descriptors in use: one for each queued copy and one for each copy in flight (R65). -/
def State.descsInUse (s : State) : Nat :=
  (s.queues.toList.map fun q => (q.toList.map List.length).sum).sum +
    (s.ports.toList.filter fun u => u.tx.any Transmission.hasDesc).length

/-- The free descriptors of the pool of 512 (R65). -/
def State.descsFree (s : State) : Nat := Config.descriptors - s.descsInUse

/-- Marks a start opportunity at the arbiter of a port (R97). -/
def State.raise (s : State) (p : Port) : State := { s with opportunities := s.opportunities.set p true }

/-- Takes back the mark of a start opportunity. -/
def State.lower (s : State) (p : Port) : State := { s with opportunities := s.opportunities.set p false }

/-- Answers of the queue manager to an append (R67, R68). -/
inductive AppendAnswer where
  | accepted | portNotUp | atLimit | noDescriptor
deriving DecidableEq, Repr

/-- The decision on a traffic append (R66, R67). -/
def State.trafficAnswer (s : State) (p : Port) (c : Cls) : AppendAnswer :=
  if !s.isUp p then .portNotUp
  else if ((s.base.limits.get p).get c).toNat ≤ (s.egress p c).length ∨
      Config.queueCap ≤ (s.egress p c).length then .atLimit
  else if s.descsFree = 0 then .noDescriptor
  else .accepted

/-- The decision on the append of a reply or notice (R68). -/
def State.mgmtAnswer (s : State) (p : Port) (c : Cls) : AppendAnswer :=
  if !s.isUp p then .portNotUp
  else if Config.queueCap ≤ (s.egress p c).length then .atLimit
  else if s.descsFree = 0 then .noDescriptor
  else .accepted

/-- An accepted append: the descriptor joins the tail, which is a start opportunity (R67, R68, R97). -/
def State.append (s : State) (p : Port) (c : Cls) (d : Desc) : State :=
  (s.setEgress p c (s.egress p c ++ [d])).raise p

/-! ### Stream counters (R53) -/

/-- Changes the per-stream state of an index. -/
def State.modStream (s : State) (i : Byte) (f : StreamState → StreamState) : State :=
  { s with streams := s.streams.modify i.toNat f }

/-- The per-stream state of an index. -/
def State.stream (s : State) (i : Byte) : StreamState := s.streams.getD i.toNat StreamState.initial

/-- Changes the counters of a stream index. -/
def State.countStream (s : State) (i : Byte) (f : StreamCounters → StreamCounters) : State :=
  s.modStream i fun st => { st with counters := f st.counters }

/-- Matched + 1. -/
def StreamCounters.incMatched (c : StreamCounters) : StreamCounters := { c with matched := c.matched + 1 }
/-- Forwarded + 1. -/
def StreamCounters.incForwarded (c : StreamCounters) : StreamCounters := { c with forwarded := c.forwarded + 1 }
/-- Dropped + 1. -/
def StreamCounters.incDropped (c : StreamCounters) : StreamCounters := { c with dropped := c.dropped + 1 }
/-- Late + 1. -/
def StreamCounters.incLate (c : StreamCounters) : StreamCounters := { c with late := c.late + 1 }
/-- Over-budget + 1. -/
def StreamCounters.incOverBudget (c : StreamCounters) : StreamCounters := { c with overBudget := c.overBudget + 1 }
/-- Duplicates + 1. -/
def StreamCounters.incDuplicates (c : StreamCounters) : StreamCounters := { c with duplicates := c.duplicates + 1 }
/-- Gaps + `n`. -/
def StreamCounters.addGaps (c : StreamCounters) (n : Nat) : StreamCounters :=
  { c with gaps := c.gaps + BitVec.ofNat 32 n }

/-! ### Updates of one field -/

/-- Changes the cycle timer. -/
def State.modTimer (s : State) (f : Timer → Timer) : State := { s with timer := f s.timer }

/-- Changes the per-stream state of every index. -/
def State.mapStreams (s : State) (f : StreamState → StreamState) : State := { s with streams := s.streams.map f }

/-- Replaces the commit slot (R123). -/
def State.setCommit (s : State) (c : Option Commit) : State := { s with gen := { s.gen with commit := c } }

/-- Replaces a port-control slot (R142). -/
def State.setPortControl (s : State) (p : Port) (o : Option PortControl) : State :=
  { s with mgmt := { s.mgmt with portControl := s.mgmt.portControl.set p o } }

/-- Replaces the condition table (R144). -/
def State.setConditions (s : State) (cs : List Condition) : State :=
  { s with mgmt := { s.mgmt with conditions := cs } }

/-- Replaces the request queue (R137). -/
def State.setRequests (s : State) (rs : List Request) : State := { s with mgmt := { s.mgmt with requests := rs } }

/-- Sets the engine's state (R139). -/
def State.setEngine (s : State) (e : Engine) : State := { s with mgmt := { s.mgmt with engine := e } }

/-- Begins or ends the drain of a DEVICE RESET (R106). -/
def State.setDrain (s : State) (d : Option Drain) : State := { s with mgmt := { s.mgmt with drain := d } }

/-- Moves the part in or out of its resets (R165, R166). -/
def State.setPower (s : State) (w : Power) : State := { s with power := w }

/-- Replaces the record list of the retention queue (R109). -/
def State.setRecords (s : State) (rs : List Record) : State :=
  { s with retention := { s.retention with records := rs } }

/-! ### Time -/

/-- The position that a reading of the timer gives: 0 to the effective length less one (R19). At the quantum of a cycle
end that has not been taken yet it is the last position of the ending cycle (notes/assumptions/6.md). -/
def State.positionNow (s : State) : Nat := min s.timer.position (s.timer.effLength - 1)

/-- The occupation of the line by a frame of `n` bytes, in quanta (R2). -/
def occupation (n : Nat) : Nat := (n + 12) * 10

/-- The (round, cycle index) that lies `k` cycles after one, carrying at cycles per round (R24, R25). How many rounds an
index carries that stands at or above cycles per round, as after a swap that lowers them, is the model's choice: as many
as it holds whole (notes/assumptions/29.md). -/
def advanceCycles (round : W16) (index k perRound : Nat) : W16 × Nat :=
  (round + BitVec.ofNat 16 ((index + k) / perRound), (index + k) % perRound)

/-- The (round, cycle index) one cycle before one (R25); only index 0 carries. -/
def backOneCycle (round : W16) (index perRound : Nat) : W16 × Nat :=
  if index = 0 then (round - 1, perRound - 1) else (round, index - 1)

end Sys2Proof.Machine
end

