-- ==== Sys2Proof/Machine/Flags.lean ====
section
/-! DEFINITION. The block's event flags: the pending notice marks (R146), the condition table (R144, R145) and the port
state changes that raise PORT_STATE events. -/

namespace Sys2Proof.Machine

open Sys2Proof

/-! ### Notice events (R146) -/

/-- Whether the active base record wants notices of a kind: the manager node is present and the kind enabled. -/
def State.noticeWanted (s : State) (k : NoticeKind) : Bool :=
  s.base.managerPresent && s.base.noticeKinds.getLsbD k.place.val

/-- One more event on a notice mark; the count stays at 255 (R146). -/
def NoticeMark.event (m : NoticeMark) : NoticeMark :=
  if m.pending then { m with count := min 255 (m.count + 1) } else { pending := true, count := 1 }

/-- Changes the mark of a notice kind. -/
def State.setMark (s : State) (k : NoticeKind) (m : NoticeMark) : State :=
  { s with mgmt := { s.mgmt with notices := s.mgmt.notices.set k.place m } }

/-- An event of a notice kind reaches the notice sender (R146). -/
def State.noticeEvent (s : State) (k : NoticeKind) : State :=
  if s.noticeWanted k then s.setMark k (s.mgmt.notices.get k.place).event else s

/-- A change of a port's state, which is a PORT_STATE event (R8). -/
def State.changePort (s : State) (p : Port) (st : PortState) : State :=
  (s.modPort p fun u => { u with state := st }).noticeEvent .portState

/-- A change of the sync state, which is a SYNC_STATE event (R32); no event when the state stays. -/
def State.changeSync (s : State) (st : SyncState) : State :=
  if s.timer.sync = st then s
  else (s.modTimer fun t => { t with sync := st }).noticeEvent .syncState

/-! ### Conditions (R144, R145) -/

/-- Whether a requester holds a condition entry. -/
def State.holdsCondition (s : State) (requester : Byte) : Bool :=
  s.mgmt.conditions.any fun c => c.requester == requester

/-- Files the failure of an early-acknowledged operation (R144). -/
def State.fileCondition (s : State) (requester : Byte) (tag : W16) (kind : Byte) (status : Status)
    (detail : Detail) : State :=
  s.setConditions
    (if s.holdsCondition requester then
      s.mgmt.conditions.map fun c =>
        if c.requester == requester then { c with further := c.further + 1 } else c
    else s.mgmt.conditions ++ [⟨requester, tag, kind, status, detail, 0⟩])

/-- The early-acknowledged operations in the four outstanding slots (R142). -/
def State.earlyOps (s : State) : Nat :=
  (s.mgmt.portControl.toList.filter fun o => o.any fun c => c.early).length +
    (if s.gen.commit.any fun c => c.early then 1 else 0)

/-- Whether early acknowledgement is granted to an operation that asks for it (R142). -/
def State.earlyGranted (s : State) : Bool :=
  decide (s.mgmt.conditions.length + s.earlyOps < Config.earlyOperations)

end Sys2Proof.Machine
end

