-- ==== Sys2Proof/Machine/Retention.lean ====
section
/-! DEFINITION. Offers to the retention queue (R110, R111) and the disposal of descriptors (R72). -/

namespace Sys2Proof.Machine

open Sys2Proof

/-- Whether the retention queue has room for one record (R110). -/
def State.retentionRoom (s : State) : Bool := decide (s.retention.records.length < Config.retentionRecords)

/-- An accepted record joins the tail; the rise to the high mark is a RETENTION_HIGH event (R110, R111). -/
def State.retain (s : State) (r : Record) : State :=
  let s' := s.setRecords (s.retention.records ++ [r])
  if s'.retention.records.length = s.base.highMark.toNat then s'.noticeEvent .retentionHigh else s'

/-- A refused offer counts as overflow (R110). -/
def State.overflow (s : State) : State :=
  { s with retention := { s.retention with overflow := s.retention.overflow + 1 } }

/-- The retention record that takes a descriptor's place (R109, R64). A descriptor of stream origin always has a stamp
and an ingress port. -/
def Desc.toRecord (d : Desc) (stream : Byte) (reason : Reason) (p : Port) : Record :=
  { slot := d.slot, reason := reason, stream := stream, ingress := d.ingress.getD p, egress := some p
    cls := d.cls, maxWait := d.maxWait
    stamp := (d.stamp.map ArrivalStamp.start).getD ⟨0, 0, 0⟩, length := d.length }

/-- Drops a copy of a stream: the stream's dropped counter, and the copy's hold on the slot (R63, R72). -/
def State.dropCopy (s : State) (stream : Byte) (slot : Nat) : State :=
  (s.countStream stream StreamCounters.incDropped).releaseSlot slot

/-- Disposes of a descriptor that has left its queue or its transmitter on port `p` (R72). -/
def State.dispose (reason : Reason) (p : Port) (s : State) (d : Desc) : State :=
  match d.origin with
  | .stream i =>
    match d.late with
    | .retain =>
      if s.retentionRoom then s.retain (d.toRecord i reason p)
      else s.overflow.dropCopy i d.slot
    | .drop => s.dropCopy i d.slot
    | .hold => s.dropCopy i d.slot
  | .unmatched => s.releaseSlot d.slot
  | .management => (s.countPort p PortCounters.incMgmtLost).releaseSlot d.slot

/-- Disposes of one egress queue from head to tail at a port loss or disable (R12). -/
def State.disposeQueue (p : Port) (s : State) (c : Cls) : State :=
  (s.egress p c).foldl (State.dispose .portDown p) (s.setEgress p c [])

/-- Disposes of a port's four egress queues in class order (R12). -/
def State.disposeQueues (s : State) (p : Port) : State := allClasses.foldl (State.disposeQueue p) s

end Sys2Proof.Machine
end

