-- ==== Sys2Proof/Machine/Gates.lean ====
section
/-! DEFINITION. The gate controller (chapter 5): windows, gates, guard bounds, the unlocked policy and lateness. -/

namespace Sys2Proof.Machine

open Sys2Proof

/-! ### Windows (R76 to R78) -/

/-- Whether the part runs its schedule under an unlocked policy in a sync state (R83). -/
def runningUnder (policy : UnlockedPolicy) (sync : SyncState) : Bool :=
  match policy with
  | .runLocal => true
  | .holdScheduled => decide (sync = .locked) || decide (sync = .holdover)

/-- Whether the part is running, not held (R83). -/
def State.scheduleRuns (s : State) : Bool := runningUnder s.base.unlocked s.timer.sync

/-- Whether a window is active in a cycle of round `r` and cycle index `i` (R77). -/
def WindowEntry.activeIn (w : WindowEntry) (r : W16) (i : Nat) : Bool :=
  (decide (w.indexMatch = 0xFF) || decide (w.indexMatch.toNat = i)) &&
    decide (r.toNat % w.modulus.toNat = w.residue.toNat)

/-- The close point of a window in a cycle of a given effective length (R78). -/
def WindowEntry.closePoint (w : WindowEntry) (effLength : Nat) : ClosePoint :=
  if w.closeOffset.toNat < effLength then .at w.closeOffset.toNat else .cycleEnd

/-- Whether a close point lies after a position (R84, R92). -/
def ClosePoint.isAfter : ClosePoint → Nat → Bool
  | .at q, p => decide (p < q)
  | .cycleEnd, _ => true

/-- The close point as a position: the cycle end counts as the effective length (R85). -/
def ClosePoint.toNat : ClosePoint → Nat → Nat
  | .at q, _ => q
  | .cycleEnd, effLength => effLength

/-- The valid windows of port `p` in the active bank that are active in the current cycle, with their indices. -/
def State.activeWindows (s : State) (p : Port) : List (WindowEntry × Nat) :=
  s.gen.active.windows.zipIdx.filter fun w =>
    w.1.valid && decide (w.1.port = p) && w.1.activeIn s.timer.round s.timer.index

/-- Whether window `i` is open on port `p`. -/
def State.isOpen (s : State) (p : Port) (i : Nat) : Bool :=
  (s.gates.get p).windows.any fun o => o.index == i

/-- Changes the gate controller's state of a port. -/
def State.modGates (s : State) (p : Port) (f : GateUnit → GateUnit) : State :=
  { s with gates := s.gates.set p (f (s.gates.get p)) }

/-- The record of a window that opens now (R78). -/
def State.openRecord (s : State) (w : WindowEntry × Nat) : OpenWindow :=
  { index := w.2, classes := w.1.classes, guarded := w.1.guarded, exclusive := w.1.exclusive
    close := w.1.closePoint s.timer.effLength }

/-- The windows of a port that an event opens: active, not open already, and chosen by `due`. -/
def State.opening (s : State) (p : Port) (due : WindowEntry → Bool) : List (WindowEntry × Nat) :=
  (s.activeWindows p).filter fun w => !s.isOpen p w.2 && due w.1

/-- Opens the windows of a port chosen by `due`; while the part is held none opens (R79, R83, R90, R92). -/
def State.openWindows (s : State) (p : Port) (due : WindowEntry → Bool) : State :=
  if s.scheduleRuns then
    s.modGates p fun g => { g with windows := g.windows ++ (s.opening p due).map s.openRecord }
  else s

/-- The windows that cover a position: opened at or before it, closing after it (R84, R92). -/
def State.covers (s : State) (pos : Nat) (w : WindowEntry) : Bool :=
  decide (w.openOffset.toNat ≤ pos) && (w.closePoint s.timer.effLength).isAfter pos

/-! ### Gates and guard bounds (R80, R81, R85) -/

/-- Whether a window record names a class. -/
def OpenWindow.names (o : OpenWindow) (c : Cls) : Bool := o.classes.getLsbD c.val

/-- Whether a class is scheduled on a port under the active base record (R80). -/
def State.isScheduled (s : State) (p : Port) (c : Cls) : Bool := (s.base.scheduled.get p).getLsbD c.val

/-- The state of a gate by R81. -/
def State.gateOpen (s : State) (p : Port) (c : Cls) : Bool :=
  let ws := (s.gates.get p).windows
  (!(ws.any OpenWindow.exclusive) || ws.any fun o => o.exclusive && o.names c) &&
    (ws.any (fun o => o.names c) || !s.isScheduled p c)

/-- The guard bound of a gate by R85. -/
def State.guardBound (s : State) (p : Port) (c : Cls) : Option Nat :=
  let naming := (s.gates.get p).windows.filter fun o => o.names c
  if s.gateOpen p c && s.isScheduled p c && naming.all OpenWindow.guarded then
    some ((naming.map fun o => o.close.toNat s.timer.effLength).foldl max 0)
  else none

/-- Whether an open gate's bound is raised or removed (R82). -/
def boundEased : Option Nat → Option Nat → Bool
  | some _, none => true
  | some b, some b' => decide (b < b')
  | none, _ => false

/-- How an evaluation reports openings (R82): by comparison with the gates before, or every open gate. -/
inductive ReportMode where
  | changes | everyOpen
deriving DecidableEq, Repr

/-- Whether the evaluation of one gate is reported to the arbiter (R82). -/
def reported (mode : ReportMode) (wasOpen isOpen : Bool) (old new : Option Nat) : Bool :=
  match mode with
  | .everyOpen => isOpen
  | .changes => isOpen && (!wasOpen || boundEased old new)

/-- Evaluates the four gates and bounds of a port and reports openings (R82). -/
def State.evaluate (mode : ReportMode) (s : State) (p : Port) : State :=
  let g := s.gates.get p
  let gate : Quad Bool := ⟨s.gateOpen p 0, s.gateOpen p 1, s.gateOpen p 2, s.gateOpen p 3⟩
  let bound : Quad (Option Nat) := ⟨s.guardBound p 0, s.guardBound p 1, s.guardBound p 2, s.guardBound p 3⟩
  let s' := s.modGates p fun g => { g with gate := gate, bound := bound }
  if allClasses.any fun c => reported mode (g.gate.get c) (gate.get c) (g.bound.get c) (bound.get c) then
    s'.raise p
  else s'

/-! ### Lateness (R87, R88) -/

/-- Whether a descriptor is late at a cycle count (R87). -/
def Desc.isLate (cycleCount : W32) (d : Desc) : Bool :=
  match d.maxWait, d.stamp with
  | some w, some st => decide (d.late ≠ .hold) && decide (w < (cycleCount - st.cycleCount).toNat)
  | _, _ => false

/-- One late descriptor: its stream's late counter, and its disposal with reason LATE (R88). -/
def State.takeLate (p : Port) (s : State) (d : Desc) : State :=
  match d.origin with
  | .stream i => State.dispose .late p (s.countStream i StreamCounters.incLate) d
  | .unmatched => State.dispose .late p s d
  | .management => State.dispose .late p s d

/-- The lateness check of one queue: the late descriptors leave and the others keep their order. The removal of the head
is a start opportunity (R88, R97). -/
def State.checkQueue (p : Port) (s : State) (c : Cls) : State :=
  let q := s.egress p c
  let late := Desc.isLate s.timer.cycleCount
  let s' := (q.filter late).foldl (State.takeLate p) (s.setEgress p c (q.filter fun d => !late d))
  if q.head?.any late then s'.raise p else s'

/-- The classes that some windows name. -/
def closingClasses (ws : List OpenWindow) : List Cls := allClasses.filter fun c => ws.any fun o => o.names c

/-- The lateness check at the close of some windows of a port (R88). -/
def State.latenessCheck (s : State) (p : Port) (ws : List OpenWindow) : State :=
  (closingClasses ws).foldl (State.checkQueue p) s

/-- Removes every open window of a port: closes with the lateness check, or a withdrawal without (R90, R92). -/
def State.closeAll (check : Bool) (s : State) (p : Port) : State :=
  let ws := (s.gates.get p).windows
  let s' := s.modGates p fun g => { g with windows := [] }
  if check then s'.latenessCheck p ws else s'

/-! ### Events at the gate controller -/

/-- Removes the open windows of every port, in port order (R90, R92). -/
def State.closeEvery (s : State) (check : Bool) : State := allPorts.foldl (State.closeAll check) s

/-- Opens the windows chosen by `due` on every port, in port order (R90, R92). -/
def State.openEvery (s : State) (due : WindowEntry → Bool) : State :=
  allPorts.foldl (fun s p => s.openWindows p due) s

/-- Evaluates the gates of every port, in port order (R82). -/
def State.evaluateEvery (s : State) (mode : ReportMode) : State := allPorts.foldl (State.evaluate mode) s

/-- Whether a window event of a port is due: the position is one, greater than 0 and within the cycle, at which a window
of the port closes or opens (R79). -/
def State.windowEventDue (s : State) (p : Port) : Bool :=
  decide (0 < s.timer.position) && decide (s.timer.position < s.timer.effLength) &&
    ((s.gates.get p).windows.any (fun o => decide (o.close = .at s.timer.position)) ||
      (s.scheduleRuns && !(s.opening p fun w => decide (w.openOffset.toNat = s.timer.position)).isEmpty))

/-- The closes of a window event (R79, step 1). -/
def State.windowCloses (s : State) (p : Port) : State :=
  let closing := fun o : OpenWindow => decide (o.close = .at s.timer.position)
  let ws := (s.gates.get p).windows
  (s.modGates p fun g => { g with windows := g.windows.filter fun o => !closing o }).latenessCheck p
    (ws.filter closing)

/-- A window event of a port: closes, opens, evaluation (R79). -/
def State.windowEvent (s : State) (p : Port) : State :=
  let s' := s.windowCloses p
  State.evaluate .changes (s'.openWindows p fun w => decide (w.openOffset.toNat = s'.timer.position)) p

/-- The gate controller's part of a cycle end (R90). `oldPolicy` is the unlocked policy of the bank active in the
finishing cycle; `s` has the timer and the bank of the new cycle. -/
def State.gatesCycleEnd (oldPolicy : UnlockedPolicy) (s : State) : State :=
  ((s.closeEvery (runningUnder oldPolicy s.timer.sync)).openEvery fun w => decide (w.openOffset.toNat = 0)).evaluateEvery
    .everyOpen

/-- The gate controller's part of a step event (R92). -/
def State.gatesStep (s : State) : State :=
  ((s.closeEvery s.scheduleRuns).openEvery (s.covers s.timer.position)).evaluateEvery .everyOpen

/-- The gate controller's part of a change between held and running at a correction (R84). -/
def State.gatesSyncEvent (wasRunning : Bool) (s : State) : State :=
  match wasRunning, s.scheduleRuns with
  | true, false => (s.closeEvery false).evaluateEvery .changes
  | false, true => (s.openEvery (s.covers s.positionNow)).evaluateEvery .changes
  | _, _ => s

end Sys2Proof.Machine
end

