-- ==== Sys2Proof/Machine/Arbiter.lean ====
section
/-! DEFINITION. The egress arbiters and transmitters (chapter 6). -/

namespace Sys2Proof.Machine

open Sys2Proof

/-- Whether a frame of `n` bytes started at a position passes a guard bound (R86). -/
def passesGuard (position n : Nat) : Option Nat → Bool
  | none => true
  | some b => decide (position + occupation n ≤ b)

/-- Whether a queue is eligible: gate open, not empty, head within the guard bound (R99). -/
def State.eligible (s : State) (p : Port) (c : Cls) : Bool :=
  match s.egress p c with
  | [] => false
  | d :: _ => (s.gates.get p).gate.get c &&
      passesGuard s.positionNow d.length ((s.gates.get p).bound.get c)

/-- Whether the reply of the DEVICE RESET still waits in the queue it joined (R106). -/
def State.drainReplyWaits (s : State) (d : Drain) : Bool :=
  match d.queue with
  | none => false
  | some (p, c) => (s.egress p c).any fun x => decide (x.origin = .management) && decide (x.slot = d.slot)

/-- What the arbiter of a port starts (R99, R106). -/
inductive Choice where
  | nothing
  | holder
  | queue (c : Cls)
deriving DecidableEq, Repr

/-- The choice out of a drain: the SYNC holder, then the queues in class order (R99). -/
def State.chooseFree (s : State) (p : Port) : Choice :=
  if (s.port p).holder.isSome then .holder
  else match allClasses.find? fun c => s.eligible p c with
    | some c => .queue c
    | none => .nothing

/-- The choice during a DEVICE RESET drain: the reply's queue alone, while the reply waits there (R106). -/
def State.chooseDrain (s : State) (p : Port) (d : Drain) : Choice :=
  match d.queue with
  | none => .nothing
  | some (q, c) =>
    if decide (p = q) && s.drainReplyWaits d && s.eligible p c then .queue c else .nothing

/-- The choice of the arbiter of an UP and idle port. -/
def State.choose (s : State) (p : Port) : Choice :=
  match s.mgmt.drain with
  | none => s.chooseFree p
  | some d => s.chooseDrain p d

/-- Starts the head of a queue: it becomes the descriptor in flight, and its frame is sent from its slot with a new check
(R70, R100). -/
def State.startDesc (s : State) (p : Port) (c : Cls) : State :=
  match s.egress p c with
  | [] => s
  | d :: rest =>
    (s.setEgress p c rest).modPort p fun u => { u with
      tx := some ⟨.desc d, s.refCount, occupation d.length, recheck (s.slotBytes d.slot d.length)⟩ }

/-- A SYNC frame with a residence time added to its correction, which stays at its largest value (R34). -/
def SyncFrame.addResidence (f : SyncFrame) (quanta : Nat) : SyncFrame :=
  { f with correction := BitVec.ofNat 32 (min (f.correction.toNat + quanta) 4294967295) }

/-- Starts the frame of the SYNC holder (R34, R101). -/
def State.startSync (s : State) (p : Port) : State :=
  match (s.port p).holder with
  | none => s
  | some h =>
    let f := h.frame.addResidence (s.refCount - h.arrival)
    s.modPort p fun u => { u with
      holder := none
      tx := some ⟨.sync f, s.refCount, Config.syncOccupation, syncBytes f⟩ }

/-- A start opportunity is taken at the arbiter of a port (R98, R99). -/
def State.arbitrate (s : State) (p : Port) : State :=
  if s.isUp p && (s.port p).tx.isNone then
    match s.choose p with
    | .nothing => s
    | .holder => s.startSync p
    | .queue c => s.startDesc p c
  else s

/-- The marked start opportunity of a port, if there is one, is taken. -/
def State.takeOpportunity (s : State) (p : Port) : State :=
  if s.opportunities.get p then (s.lower p).arbitrate p else s

/-- The end of a command: the start opportunities that it raised are taken, after all its other effects (R105;
notes/assumptions/8.md). -/
def State.settle (s : State) : State := allPorts.foldl State.takeOpportunity s

/-- Whether the occupation of the transmission on a port has passed (R102). -/
def State.transmissionDue (s : State) (p : Port) : Bool :=
  match (s.port p).tx with
  | none => false
  | some t => decide (t.start + t.occupation ≤ s.refCount)

end Sys2Proof.Machine
end

