-- ==== Sys2Proof/Machine/Management.lean ====
section
/-! DEFINITION. The management engine's shared operations (chapter 9): replies, the answered list, completions, intake,
the take, and the notice sender. -/

namespace Sys2Proof.Machine

open Sys2Proof

/-! ### Replies (R68, R136) -/

/-- The descriptor of a reply or notice (R64). -/
def mgmtDesc (slot : Nat) (c : Cls) (length : Nat) : Desc :=
  { slot := slot, origin := .management, cls := c, late := .drop, maxWait := none, stamp := none
    ingress := none, length := length }

/-- Appends a reply to the management-class queue of a port; a refused reply is dropped, its slot released and the loss
counted (R68). -/
def State.appendReply (s : State) (p : Port) (slot length : Nat) : State :=
  match s.mgmtAnswer p s.mgmtClass with
  | .accepted => s.append p s.mgmtClass (mgmtDesc slot s.mgmtClass length)
  | .portNotUp => (s.countPort p PortCounters.incMgmtLost).releaseSlot slot
  | .atLimit => (s.countPort p PortCounters.incMgmtLost).releaseSlot slot
  | .noDescriptor => (s.countPort p PortCounters.incMgmtLost).releaseSlot slot

/-- The contents of a reply to a request frame that stands in a slot: its stream tag and sequence are copied (R136). -/
def State.replyTo (s : State) (slot : Nat) (requester : Byte) (tag : W16) (kind : Byte) (status : Status)
    (residue : Nat) (data : List Byte) : Reply :=
  { requester := requester, streamTag := frameTag (s.slotBytes slot 16)
    sequence := frameSeq (s.slotBytes slot 16), tag := tag, kind := kind, status := status
    isRepeat := false, isCond := false, residue := residue, data := data }

/-- Builds a reply in a slot, with the node address, epoch and generation as they stand (R136). -/
def State.buildReply (s : State) (slot : Nat) (r : Reply) : State :=
  s.writeSlot slot (replyBytes r s.base.node s.mgmt.epoch s.gen.number)

/-- Builds a reply in a slot and appends it on a port (R136). -/
def State.sendReply (s : State) (p : Port) (slot : Nat) (r : Reply) : State :=
  (s.buildReply slot r).appendReply p slot (replyLength r)

/-- Adds a record to the answered list; from a list of 8 the oldest leaves first (R141). -/
def State.recordAnswer (s : State) (requester : Byte) (tag : W16) (kind : Byte) (status : Status) : State :=
  { s with mgmt := { s.mgmt with
      answered := (if Config.answerRecords ≤ s.mgmt.answered.length then s.mgmt.answered.drop 1
        else s.mgmt.answered) ++ [⟨requester, tag, kind, status⟩] } }

/-- A reply of the engine: built in the request's slot, recorded and appended (R140, R141). -/
def State.engineReply (s : State) (req : Request) (r : Reply) : State :=
  (s.recordAnswer req.requester req.tag req.kind r.status).sendReply req.ingress req.slot r

/-- An immediate reply, after which the engine is IDLE (R140). -/
def State.answer (s : State) (req : Request) (status : Status) (residue : Nat) (data : List Byte) : State :=
  (s.engineReply req (s.replyTo req.slot req.requester req.tag req.kind status residue data)).setEngine .idle

/-- An immediate reply without residue or data. -/
def State.answerBare (s : State) (req : Request) (status : Status) : State := s.answer req status 0 []

/-- The end of an outstanding operation whose slot has been emptied (R143): without early acknowledgement a reply in the
kept frame slot, with it a condition for a failure and nothing otherwise. -/
def State.completeOp (s : State) (requester : Byte) (tag : W16) (ingress : Port) (kind : Byte)
    (slot : Option Nat) (status : Status) (failure : Option Detail) : State :=
  match slot with
  | some n =>
    (s.recordAnswer requester tag kind status).sendReply ingress n (s.replyTo n requester tag kind status 0 [])
  | none =>
    match failure with
    | some d => s.fileCondition requester tag kind status d
    | none => s

/-- The request kind code of COMMIT (12.6). -/
def reqCommit : Byte := 0x0A
/-- The request kind code of PORT CONTROL (12.6). -/
def reqPortControl : Byte := 0x0C

/-- The port-control operation of a port ends (R160): its slot is emptied and the outcome reported. -/
def State.completePortControl (s : State) (p : Port) (status : Status) (failure : Option Detail) : State :=
  match s.mgmt.portControl.get p with
  | none => s
  | some o =>
    (s.setPortControl p none).completeOp o.requester o.tag o.ingress reqPortControl o.slot status failure

/-- The pending commit ends (R134): its slot is emptied and the outcome reported. -/
def State.completeCommit (s : State) (status : Status) (failure : Option Detail) : State :=
  match s.gen.commit with
  | none => s
  | some o =>
    (s.setCommit none).completeOp o.requester o.tag o.ingress reqCommit o.slot status failure

/-! ### Intake (R137, R138) -/

/-- Whether a request with a requester and tag is the engine's current request (R137). -/
def Engine.holds : Engine → Byte → W16 → Bool
  | .idle, _, _ => false
  | .stopped, _, _ => false
  | .executing req _, r, t => decide (req.requester = r) && decide (req.tag = t)

/-- Whether a request with a requester and tag is queued, executing or outstanding (R137, test 1). -/
def State.isPendingRequest (s : State) (r : Byte) (t : W16) : Bool :=
  (s.mgmt.requests.any fun q => decide (q.requester = r) && decide (q.tag = t)) ||
    s.mgmt.engine.holds r t ||
    (s.mgmt.portControl.toList.any fun o => o.any fun c => decide (c.requester = r) && decide (c.tag = t)) ||
    (s.gen.commit.any fun c => decide (c.requester = r) && decide (c.tag = t))

/-- The answered-list record of a requester and tag (R137, test 2). -/
def State.answerOf (s : State) (r : Byte) (t : W16) : Option Answer :=
  s.mgmt.answered.find? fun a => decide (a.requester = r) && decide (a.tag = t)

/-- The request record of an intercepted REQUEST in a slot (R135, R138). -/
def State.requestIn (s : State) (p : Port) (slot length : Nat) : Request :=
  let bs := s.slotBytes slot 20
  { slot := slot, requester := frameSrc bs, tag := BitVec.ofNat 16 (numAt bs 0x10 2), kind := byteAt bs 0x12
    flags := byteAt bs 0x13, ingress := p, length := length }

/-- Intake of an intercepted REQUEST (R137, R138). -/
def State.intake (s : State) (p : Port) (slot length : Nat) : State :=
  let req := s.requestIn p slot length
  let r := s.replyTo slot req.requester req.tag req.kind .duplicatePending 0 []
  if s.isPendingRequest req.requester req.tag then s.sendReply p slot r
  else match s.answerOf req.requester req.tag with
    | some a => s.sendReply p slot { r with kind := a.kind, status := a.status, isRepeat := true }
    | none =>
      if Config.requestPlaces ≤ s.mgmt.requests.length then s.sendReply p slot { r with status := .queueFull }
      else s.setRequests (s.mgmt.requests ++ [req])

/-! ### The take and the form test (R139, R151) -/

/-- The engine, when IDLE, takes the head of the request queue and makes the condition test (R139). -/
def State.take (s : State) : State :=
  match s.mgmt.engine, s.mgmt.requests with
  | .idle, q :: rest =>
    (s.setRequests rest).setEngine (.executing q (s.holdsCondition q.requester))
  | _, _ => s

/-- The byte at an offset of a request's parameter block (12.2). -/
def State.param (s : State) (req : Request) (i : Nat) : Byte := byteAt (s.slotBytes req.slot req.length) (0x14 + i)

/-- The parameter bytes a request kind requires, with the count field of the two staging kinds read as it stands
(R151 and the table of chapter 10). -/
def paramBytes (kind count : Nat) : Nat :=
  match kind with
  | 0x03 => 3
  | 0x04 => 1
  | 0x05 => 4
  | 0x06 => 2 + 32 * count
  | 0x07 => 2 + 16 * count
  | 0x08 => 64
  | 0x0A => 3
  | 0x0C => 2
  | 0x0E => 1
  | 0x10 => 1
  | _ => 0

/-- The frame length a request kind requires (R135, R151). -/
def requiredLength (kind count : Nat) : Nat := max 32 (24 + paramBytes kind count)

/-- The form test of a taken request (R139, R171). -/
def State.formOk (s : State) (req : Request) : Bool :=
  isRequestKind req.kind && decide (req.length = requiredLength req.kind.toNat (s.param req 1).toNat)

/-- The two bytes and the rest of a condition entry, as data (12.2). -/
def conditionData (c : Condition) : List Byte :=
  beBytes 2 c.tag.toNat ++ [c.kind, statusCode c.status] ++
    (match c.detail with
      | .round r => beBytes 2 r.toNat
      | .port p => [0, portCode p]) ++ [BitVec.ofNat 8 c.further]

/-- A taken request of a requester that holds a condition is refused, and the entry delivered and removed (R145). -/
def State.deliverCondition (s : State) (req : Request) : State :=
  let data :=
    match s.mgmt.conditions.find? fun c => c.requester == req.requester with
    | some c => conditionData c
    | none => []
  let r := { s.replyTo req.slot req.requester req.tag req.kind .condition 0 data with isCond := true }
  ((s.setConditions (s.mgmt.conditions.filter fun c => !(c.requester == req.requester))).engineReply req r).setEngine
    .idle

/-- A request taken by the engine: CONDITION, BAD_REQUEST, or its execution (R139). -/
def State.runTaken (body : Request → State → State) (req : Request) (held : Bool) (s : State) : State :=
  if held then s.deliverCondition req
  else if s.formOk req then body req s
  else s.answerBare req .badRequest

/-- The step of a request kind: the engine takes the head of the request queue if it is IDLE, and then, when its current
request is one that `mine` chooses, runs it and takes the start opportunities. A request of another kind, an empty queue
or a part in reset leaves the state as it is: that step does not come about. -/
def State.runRequest (mine : Byte → Bool) (body : Request → State → State) (s : State) : State :=
  if s.power = .running then
    match s.take.mgmt.engine with
    | .executing req held => if mine req.kind then (State.runTaken body req held s.take).settle else s
    | .idle => s
    | .stopped => s
  else s

/-! ### The notice sender (R147) -/

/-- The value bytes of a notice (12.3). -/
def State.noticeValue (s : State) : NoticeKind → List Byte
  | .syncState => [syncStateCode s.timer.sync]
  | .portState => s.ports.toList.map fun u => portStateCode u.state
  | .generation => beBytes 2 s.gen.number.toNat
  | .retentionHigh => [BitVec.ofNat 8 s.retention.records.length]

/-- The notice sequence increases by one, wrapping from 255 to 0 (R147). -/
def State.nextNotice (s : State) : State := { s with mgmt := { s.mgmt with noticeSeq := s.mgmt.noticeSeq + 1 } }

/-- Builds a notice in a slot, appends it and clears its mark (R147, step 3). -/
def State.buildNotice (s : State) (p : Port) (slot : Nat) (k : NoticeKind) : State :=
  let bs := noticeBytes s.base.manager s.base.node s.mgmt.noticeSeq k (s.mgmt.notices.get k.place).count
    s.mgmt.epoch (s.noticeValue k)
  let s1 := (s.writeSlot slot bs).append p s.mgmtClass (mgmtDesc slot s.mgmtClass 32)
  (s1.setMark k ⟨false, 0⟩).nextNotice

/-- Tries one notice kind (R147). -/
def State.tryNotice (s : State) (k : NoticeKind) : State :=
  if (s.mgmt.notices.get k.place).pending then
    if s.noticeWanted k then
      match portOfCode s.base.noticePort with
      | none => s
      | some p =>
        match s.mgmtAnswer p s.mgmtClass with
        | .accepted =>
          match s.takeSlot with
          | (some slot, s') => s'.buildNotice p slot k
          | (none, _) => s
        | .portNotUp => s
        | .atLimit => s
        | .noDescriptor => s
    else s.setMark k ⟨false, 0⟩
  else s

/-- The notice sender's part of a cycle end; it tries nothing while the engine is STOPPED (R147). -/
def State.tryNotices (s : State) : State :=
  if s.mgmt.engine = .stopped then s
  else [NoticeKind.syncState, .portState, .generation, .retentionHigh].foldl State.tryNotice s

end Sys2Proof.Machine
end

