-- ==== Sys2Proof/Machine/Generation.lean ====
section
/-! DEFINITION. Generation control (chapter 8): validation, the swap, and the failures of a pending commit. -/

namespace Sys2Proof.Machine

open Sys2Proof

/-! ### Validation (R125) -/

/-- The number of the first check of a list that fails, counted from 1. -/
def firstFailure (checks : List Bool) : Option Nat :=
  (checks.zipIdx.find? fun c => !c.1).map fun c => c.2 + 1

/-- The local station addresses that the count covers (12.4). -/
def BaseRecord.stationList (b : BaseRecord) : List Byte := b.stations.toList.take b.stationCount.toNat

/-- The checks of a base record, in the order of R125. Check 5 compares with L ÷ 2 itself: only R25 truncates it. -/
def BaseRecord.checks (b : BaseRecord) : List Bool :=
  [ decide (6250 ≤ b.cycleLength.toNat) && decide (b.cycleLength.toNat ≤ 1250000),
    decide (1 ≤ b.cyclesPerRound.toNat) && decide (b.cyclesPerRound.toNat ≤ 64),
    decide (b.linkDelay.toNat < b.cycleLength.toNat),
    decide (1 ≤ b.lockWindow.toNat) && decide (b.lockWindow.toNat ≤ 1000),
    decide (b.lockWindow.toNat < b.stepThreshold.toNat) &&
      decide (2 * b.stepThreshold.toNat < b.cycleLength.toNat),
    decide (1 ≤ b.holdoverLimit.toNat),
    b.limits.toList.all fun q => q.toList.all fun l => decide (1 ≤ l.toNat) && decide (l.toNat ≤ 128),
    decide (1 ≤ b.mgmtClass.toNat) && decide (b.mgmtClass.toNat ≤ 3),
    decide (b.stationCount.toNat ≤ 4) &&
      b.stationList.all (fun a => decide (1 ≤ a.toNat) && decide (a.toNat ≤ 253) && decide (a ≠ b.node)) &&
      decide b.stationList.Nodup,
    decide (b.node.toNat ≤ 253),
    decide (b.noticePort.toNat ≤ 2),
    decide (1 ≤ b.highMark.toNat) && decide (b.highMark.toNat ≤ 32) ]

/-- The checks of a valid window entry beside its base record, in the order of R125. -/
def WindowEntry.checks (b : BaseRecord) (w : WindowEntry) : List Bool :=
  [ decide (w.openOffset.toNat < w.closeOffset.toNat) &&
      decide (w.closeOffset.toNat ≤ b.cycleLength.toNat),
    decide (w.classes ≠ 0),
    decide (w.indexMatch = 0xFF) || decide (w.indexMatch.toNat < b.cyclesPerRound.toNat),
    [1, 2, 4, 8, 16].contains w.modulus.toNat,
    decide (w.residue.toNat < w.modulus.toNat) ]

/-- The ingress port set that holds one port alone. -/
def soleSet : Port → BitVec 3
  | .A => 1
  | .B => 2
  | .L => 4

/-- Whether a route names a port that is the only port of the ingress set (R125, stream check 7). -/
def StreamEntry.routesToSole (e : StreamEntry) : Bool :=
  match e.route with
  | .port p => decide (e.ports = soleSet p)
  | .bothOthers => false
  | .default => false

/-- The checks of a valid stream entry, in the order of R125. -/
def StreamEntry.checks (e : StreamEntry) : List Bool :=
  [ decide (e.ports ≠ 0),
    decide (e.kinds ≠ 0),
    decide (e.tagLow.toNat ≤ e.tagHigh.toNat),
    decide (e.budget = 0) || decide (64 ≤ e.budget.toNat),
    decide (32 ≤ e.maxLength.toNat) && decide (e.maxLength.toNat ≤ 512),
    decide (e.maxWait = 0xFF) || decide (e.maxWait.toNat ≤ 15),
    !e.routesToSole ]

/-- A failed validation: the table's code, the check number and the entry's index (R125, 12.2). -/
structure Invalid where
  table : Byte
  check : Nat
  index : Nat
deriving DecidableEq, Repr

/-- The first failure of a table's valid entries, in index order. -/
def firstInvalid {α : Type} (table : Byte) (valid : α → Bool) (checks : α → List Bool) :
    (index : Nat) → List α → Option Invalid
  | _, [] => none
  | i, e :: rest =>
    match (if valid e then firstFailure (checks e) else none) with
    | some k => some ⟨table, k, i⟩
    | none => firstInvalid table valid checks (i + 1) rest

/-- The validation of a bank: the base record, then the windows, then the streams (R125). -/
def Bank.validate (b : Bank) : Option Invalid :=
  match firstFailure b.base.checks with
  | some k => some ⟨0, k, 0⟩
  | none =>
    match firstInvalid 1 WindowEntry.valid (WindowEntry.checks b.base) 0 b.windows with
    | some f => some f
    | none => firstInvalid 2 StreamEntry.valid StreamEntry.checks 0 b.streams

/-! ### The round start (R126, R127) -/

/-- Whether a pending commit is due at a round-start event with a given new round (R126). -/
def Target.dueAt : Target → W16 → Bool
  | .nextRound, _ => true
  | .atRound r, round => decide (r = round)

/-- Whether a due commit may swap in a sync state (R126). -/
def Target.maySwap : Target → SyncState → Bool
  | .nextRound, _ => true
  | .atRound _, st => decide (st = .locked) || decide (st = .holdover)

/-- The timer's part of a swap (R35): a changed cycle length drops a pending slew, and a changed timing port takes LOCKED
to HOLDOVER with missed count 0. -/
def State.takeBaseIntoUse (s : State) (old : BaseRecord) : State :=
  let s1 :=
    if s.base.cycleLength = old.cycleLength then s else s.modTimer fun t => { t with slew := none }
  if s1.base.timingPort ≠ old.timingPort ∧ s1.timer.sync = .locked then
    (s1.modTimer fun t => { t with missed := 0 }).changeSync .holdover
  else s1

/-- The banks exchange their roles, and the generation number increases by one (R119, R120, R127). -/
def State.exchangeBanks (s : State) : State :=
  { s with gen := { s.gen with active := s.gen.shadow, shadow := s.gen.active, number := s.gen.number + 1 } }

/-- The swap (R127): the banks exchange roles, the generation rises, the expectations clear, the GENERATION event is
raised and the commit is answered. -/
def State.swap (s : State) : State :=
  let s1 := s.exchangeBanks.mapStreams fun st => { st with expectation := none }
  ((s1.takeBaseIntoUse s.base).noticeEvent .generation).completeCommit .done none

/-- The failure of a pending AT_ROUND commit, with its target round as the detail (R126, R128, R134). -/
def State.failCommit (s : State) (status : Status) (r : W16) : State :=
  s.completeCommit status (some (.round r))

/-- Generation control's part of a round-start event (R126). -/
def State.roundStart (s : State) : State :=
  match s.gen.commit with
  | none => s
  | some c =>
    if c.target.dueAt s.timer.round then
      if c.target.maySwap s.timer.sync then s.swap
      else match c.target with
        | .nextRound => s
        | .atRound r => s.failCommit .notSynced r
    else s

/-- The distance from one round to another, modulo 65,536 (R124, R128). -/
def roundDistance (target current : W16) : Nat := (target - current).toNat

/-- Whether a round lies ahead: at a distance from 1 to 32,767 (R124, R128). -/
def roundAhead (target current : W16) : Bool :=
  decide (1 ≤ roundDistance target current) && decide (roundDistance target current ≤ 32767)

/-- Generation control's part of a step event (R128). -/
def State.commitStep (s : State) : State :=
  match s.gen.commit with
  | none => s
  | some c =>
    match c.target with
    | .nextRound => s
    | .atRound r => if roundAhead r s.timer.round then s else s.failCommit .missedRound r

end Sys2Proof.Machine
end

