-- ==== Sys2Proof/Machine/Timer.lean ====
section
/-! DEFINITION. The cycle timer and the sync servo (chapter 2). -/

namespace Sys2Proof.Machine

open Sys2Proof

/-- The clamp of the trim (R22). -/
def clampTrim (t : Int) : Int := max (-Config.trimMax) (min Config.trimMax t)

/-! ### The cycle end (R20, R21, R30) -/

/-- The first four changes of a cycle end: cycle count, cycle index, round and position (R20). -/
def Timer.count (perRound : Nat) (t : Timer) : Timer :=
  let index := if perRound ≤ t.index + 1 then 0 else t.index + 1
  { t with
    cycleCount := t.cycleCount + 1
    index := index
    round := if index = 0 then t.round + 1 else t.round
    position := 0 }

/-- What a missed sync does (R30): the new sync state, good count and missed count, from the sync state and the missed
count after its increase. -/
def missedOutcome (holdoverLimit : Nat) (sync : SyncState) (good missed : Nat) : SyncState × Nat × Nat :=
  match sync with
  | .free => (.free, good, missed)
  | .acquiring => if Config.acquireMisses ≤ missed then (.free, 0, missed) else (.acquiring, good, missed)
  | .locked => if Config.lockMisses ≤ missed then (.holdover, good, 0) else (.locked, good, missed)
  | .holdover => if holdoverLimit ≤ missed then (.free, good, missed) else (.holdover, good, missed)

/-- The missed-sync accounting of a cycle end, after which the used flag is clear (R20 step 5, R30). -/
def State.accountMissed (s : State) : State :=
  if s.timer.used then s.modTimer fun t => { t with used := false }
  else
    let o := missedOutcome s.base.holdoverLimit.toNat s.timer.sync s.timer.good
      (min Config.missedMax (s.timer.missed + 1))
    (s.modTimer fun t => { t with good := o.2.1, missed := o.2.2 }).changeSync o.1

/-- The effective length of the cycle that begins (R21). -/
def Timer.fixLength (cycleLength : Nat) (t : Timer) : Timer :=
  let acc := t.residue + t.trim
  let q := acc.tdiv 256
  { t with
    residue := acc - q * 256
    effLength := ((cycleLength : Int) + q + t.slew.getD 0).toNat
    slew := none }

/-- The budget refresh of a cycle end (R55). -/
def State.refreshBudgets (s : State) : State :=
  s.mapStreams fun st => { st with budgetUsed := 0 }

/-- Generation control's part of a cycle end: only a round start reaches it (R20 step 6). -/
def State.atRoundStart (s : State) : State := if s.timer.index = 0 then s.roundStart else s

/-- The timer's part of a cycle end, with the swap (R20). -/
def State.cycleEndTimer (s : State) : State :=
  let s1 := (s.modTimer (Timer.count s.base.cyclesPerRound.toNat)).accountMissed
  let s2 := s1.atRoundStart
  s2.modTimer (Timer.fixLength s2.base.cycleLength.toNat)

/-- A cycle end whole (R20): the timer, then the gate controller, the classifier's budgets and the notice sender. -/
def State.cycleEnd (s : State) : State :=
  ((State.gatesCycleEnd s.base.unlocked s.cycleEndTimer).refreshBudgets).tryNotices

/-- Whether a cycle end is due: the position has reached the effective length (R19). -/
def State.cycleEndDue (s : State) : Bool := decide (s.timer.effLength ≤ s.timer.position)

/-! ### The servo (R23 to R29) -/

/-- The expected point of a usable SYNC (R24): round, cycle index and position. -/
def expectedPoint (b : BaseRecord) (f : SyncFrame) : W16 × Nat × Nat :=
  let e0 := f.correction.toNat + b.linkDelay.toNat
  let l := b.cycleLength.toNat
  let c := advanceCycles f.round f.index.toNat (e0 / l) b.cyclesPerRound.toNat
  (c.1, c.2, e0 % l)

/-- The error of a usable SYNC and the adjusted local (round, cycle index) (R25). The table normalises once. A reception
that straddles a swap to a much shorter cycle can leave an error beyond H, against the sentence after the table: that it
is left so is the model's choice (notes/assumptions/33.md). -/
def servoError (b : BaseRecord) (stamp : Stamp) (e : Nat) : Int × W16 × Nat :=
  let l : Int := b.cycleLength.toNat
  let h := l / 2
  let raw := (stamp.position : Int) - e
  let n := b.cyclesPerRound.toNat
  if h < raw then (raw - l, advanceCycles stamp.round stamp.index 1 n)
  else if raw < -h then (raw + l, backOneCycle stamp.round stamp.index n)
  else (raw, (stamp.round, stamp.index))

/-- The three columns of R29. -/
inductive Band where
  | inLock | inStep | beyond
deriving DecidableEq, Repr

/-- The column of R29 for an error; a count mismatch is beyond the step threshold (R25). -/
def errorBand (b : BaseRecord) (err : Int) (mismatch : Bool) : Band :=
  if mismatch || decide (b.stepThreshold.toNat < err.natAbs) then .beyond
  else if b.lockWindow.toNat < err.natAbs then .inStep
  else .inLock

/-- What the servo does on a usable SYNC (R29). -/
inductive ServoAct where
  | step
  | correct (sync : SyncState) (good : Nat)
deriving DecidableEq, Repr

/-- The table of R29. -/
def servoAct (sync : SyncState) (good : Nat) (band : Band) : ServoAct :=
  match sync, band with
  | .free, _ => .step
  | _, .beyond => .step
  | .acquiring, .inLock =>
    if Config.lockCount ≤ good + 1 then .correct .locked Config.lockCount else .correct .acquiring (good + 1)
  | .acquiring, .inStep => .correct .acquiring 0
  | .locked, _ => .correct .locked good
  | .holdover, .inLock => .correct .locked good
  | .holdover, .inStep => .correct .acquiring 0

/-- A correction for an error (R26, R22). -/
def Timer.correct (err : Int) (t : Timer) : Timer :=
  { t with trim := clampTrim (t.trim + 4 * err), slew := some (err.tdiv 2) }

/-- The landing point of a phase step: the expected point and the quanta of the reception (R27). -/
def Timer.land (b : BaseRecord) (point : W16 × Nat × Nat) (elapsed : Nat) (t : Timer) : Timer :=
  let l := b.cycleLength.toNat
  let sum := point.2.2 + elapsed
  let c := advanceCycles point.1 point.2.1 (sum / l) b.cyclesPerRound.toNat
  { t with position := sum % l, index := c.2, round := c.1, effLength := l, residue := 0, slew := none, used := true }

/-- A phase step whole (R27, R28, R29): the count is rewritten, the state becomes ACQUIRING with good count 0, and the
step event reaches the gate controller and generation control. R28 names the two without an order: that the gate
controller comes first is the model's choice (notes/assumptions/30.md). -/
def State.phaseStep (s : State) (point : W16 × Nat × Nat) (elapsed : Nat) : State :=
  let s1 := (s.modTimer fun t => { t.land s.base point elapsed with good := 0 }).changeSync .acquiring
  s1.gatesStep.commitStep

/-- A correction whole (R26, R29, R84): trim, slew, the good count, the sync state, and the gates when the part changes
between held and running. -/
def State.servoCorrect (s : State) (err : Int) (sync : SyncState) (good : Nat) : State :=
  let s1 := (s.modTimer fun t => { t.correct err with good := good }).changeSync sync
  State.gatesSyncEvent s.scheduleRuns s1

/-- The servo uses a usable SYNC at its reception end (R23 to R29). -/
def State.useSync (s : State) (rx : Reception) (f : SyncFrame) : State :=
  let point := expectedPoint s.base f
  let m := servoError s.base rx.stamp point.2.2
  let mismatch := !decide (m.2 = (point.1, point.2.1))
  let act := servoAct s.timer.sync s.timer.good (errorBand s.base m.1 mismatch)
  let s1 := s.modTimer fun t => { t with missed := 0, used := true, lastErr := m.1 }
  match act with
  | .step => s1.phaseStep point (s.refCount - rx.start)
  | .correct sync good => s1.servoCorrect m.1 sync good

/-- Whether a SYNC arrival on the timing port is usable (R23). -/
def State.syncUsable (s : State) (rx : Reception) (f : SyncFrame) : Bool :=
  rx.atTiming && decide (f.index.toNat < s.base.cyclesPerRound.toNat)

/-- Fills the SYNC holder of a port, if the port is UP; an occupied holder is overwritten and counted (R33). -/
def State.fillHolder (h : HeldSync) (s : State) (p : Port) : State :=
  if s.isUp p then
    let s1 := if (s.port p).holder.isSome then s.countPort p PortCounters.incSyncReplaced else s
    (s1.modPort p fun u => { u with holder := some h }).raise p
  else s

/-- A SYNC arrival on the timing port: the servo, then the copies to the other ports (R6, R33). -/
def State.syncArrival (s : State) (p : Port) (rx : Reception) (f : SyncFrame) : State :=
  let s1 := if s.syncUsable rx f then s.useSync rx f else s
  (otherPorts p).foldl (State.fillHolder ⟨f, rx.start⟩) s1

end Sys2Proof.Machine
end

