-- ==== Sys2Proof/Machine/Classify.lean ====
section
/-! DEFINITION. The stream classifier (chapter 3). -/

namespace Sys2Proof.Machine

open Sys2Proof

/-- An arrival at the classifier: its ingress port, slot, stamp and the header fields the classifier reads (R6). -/
structure Arrival where
  port     : Port
  slot     : Nat
  stamp    : ArrivalStamp
  dst      : Byte
  src      : Byte
  kind     : Byte
  sequence : Byte
  tag      : W16
  length   : Nat
deriving DecidableEq, Repr

/-- The arrival of a frame of kind `kind` and length `length` that stands in a slot. -/
def State.arrivalIn (s : State) (p : Port) (slot : Nat) (stamp : ArrivalStamp) (kind : Byte) (length : Nat) :
    Arrival :=
  let bs := s.slotBytes slot 16
  { port := p, slot := slot, stamp := stamp, dst := frameDst bs, src := frameSrc bs, kind := kind
    sequence := frameSeq bs, tag := frameTag bs, length := length }

/-! ### Interception (R40, R41) -/

/-- Whether an arrival is addressed to the part itself (R40, R41). -/
def State.intercepts (s : State) (a : Arrival) : Bool :=
  let node := s.base.node
  if node = 0 then decide (a.dst = 0) && decide (a.port = .L)
  else decide (node.toNat ≤ 253) && decide (a.dst = node)

/-! ### Selecting the entry (R38, R43) -/

/-- The member of an ingress port set that a port is (12.4). -/
def portBit : Port → Nat
  | .A => 0
  | .B => 1
  | .L => 2

/-- Whether a kind set accepts a frame kind (R38, 12.4). -/
def kindAccepted (kinds : BitVec 4) (kind : Byte) : Bool :=
  if kind = kindData then kinds.getLsbD 0
  else if kind = kindRequest then kinds.getLsbD 1
  else if kind = kindReply then kinds.getLsbD 2
  else if kind = kindNotice then kinds.getLsbD 3
  else false

/-- Whether an entry matches an arrival (R38). -/
def StreamEntry.accepts (e : StreamEntry) (a : Arrival) : Bool :=
  e.valid && e.ports.getLsbD (portBit a.port) && kindAccepted e.kinds a.kind &&
    (e.srcAny || decide (e.src = a.src)) && (e.dstAny || decide (e.dst = a.dst)) &&
    decide (e.tagLow.toNat ≤ a.tag.toNat) && decide (a.tag.toNat ≤ e.tagHigh.toNat)

/-- The entry an arrival selects: the lowest index that matches (R43). -/
def State.selectEntry (s : State) (a : Arrival) : Option (Byte × StreamEntry) :=
  (s.gen.active.streams.zipIdx.find? fun e => e.1.accepts a).map fun e => (BitVec.ofNat 8 e.2, e.1)

/-! ### The steps of a matched arrival (R43 to R50) -/

/-- Step 2: the match is counted, and the stamp captured (R43, R54). -/
def State.countMatch (s : State) (i : Byte) (e : StreamEntry) (a : Arrival) : State :=
  s.modStream i fun st =>
    { st with counters := st.counters.incMatched, stamp := if e.capture then some a.stamp.start else st.stamp }

/-- The judgements of the sequence monitor (R45). -/
inductive SeqJudgement where
  | first | inOrder | duplicate
  | ahead (distance : Nat)
deriving DecidableEq, Repr

/-- The judgement of a sequence value against an expectation (R45). -/
def judgeSequence (expectation : Option Byte) (q : Byte) : SeqJudgement :=
  match expectation with
  | none => .first
  | some x =>
    if q = x then .inOrder
    else if (x - q).toNat ≤ 16 then .duplicate
    else .ahead (q - x).toNat

/-- What a judgement does to the per-stream state (R45). -/
def StreamState.afterSequence (st : StreamState) (q : Byte) : SeqJudgement → StreamState
  | .first => { st with expectation := some (q + 1) }
  | .inOrder => { st with expectation := some (q + 1) }
  | .duplicate => { st with counters := st.counters.incDuplicates }
  | .ahead d => { st with expectation := some (q + 1), counters := st.counters.addGaps d }

/-- Step 4: the sequence monitor; the flag tells whether the frame continues (R45). -/
def State.monitorStep (s : State) (i : Byte) (e : StreamEntry) (a : Arrival) : State × Bool :=
  match e.monitor with
  | .off => (s, true)
  | .count =>
    (s.modStream i fun st => st.afterSequence a.sequence (judgeSequence st.expectation a.sequence), true)
  | .discard =>
    (s.modStream i fun st => st.afterSequence a.sequence (judgeSequence st.expectation a.sequence),
      decide (judgeSequence (s.stream i).expectation a.sequence ≠ .duplicate))

/-- Step 5 under RETAIN: the frame is offered as CAPTURED (R46). -/
def State.captureFrame (s : State) (i : Byte) (e : StreamEntry) (a : Arrival) : State :=
  if s.retentionRoom then
    s.retain { slot := a.slot, reason := .captured, stream := i, ingress := a.port, egress := none, cls := e.cls
               maxWait := maxWaitOf e.maxWait, stamp := a.stamp.start, length := a.length }
  else s.overflow.dropCopy i a.slot

/-- Step 6: the byte budget; none when the frame is dropped, else the class it goes on in (R47). -/
def State.budgetStep (s : State) (i : Byte) (e : StreamEntry) (a : Arrival) : State × Option Cls :=
  if e.budget = 0 then (s, some e.cls)
  else if (s.stream i).budgetUsed + a.length ≤ e.budget.toNat then
    (s.modStream i fun st => { st with budgetUsed := st.budgetUsed + a.length }, some e.cls)
  else
    (s.countStream i StreamCounters.incOverBudget,
      match e.overBudget with
      | .drop => none
      | .demote => some 3)

/-- The default route (R52). -/
def State.defaultRoute (s : State) (a : Arrival) : List Port :=
  if s.base.stationList.contains a.dst then [.L]
  else if a.dst = 0xFF then otherPorts a.port
  else match a.port with
    | .A => [.B]
    | .B => [.A]
    | .L => [s.base.uplink.toPort]

/-- The egress ports of a route, in port order (R48). -/
def State.routePorts (s : State) (r : Route) (a : Arrival) : List Port :=
  match r with
  | .port p => [p]
  | .bothOthers => otherPorts a.port
  | .default => s.defaultRoute a

/-- A copy for a port that is not UP: retained as PORT_DOWN or dropped; the number counts the holders made (R49). -/
def State.copyDown (s : State) (i : Byte) (e : StreamEntry) (c : Cls) (a : Arrival) (p : Port) : State × Nat :=
  match e.late with
  | .retain =>
    if s.retentionRoom then
      (s.retain { slot := a.slot, reason := .portDown, stream := i, ingress := a.port, egress := some p, cls := c
                  maxWait := maxWaitOf e.maxWait, stamp := a.stamp.start, length := a.length }, 1)
    else (s.overflow.countStream i StreamCounters.incDropped, 0)
  | .hold => (s.countStream i StreamCounters.incDropped, 0)
  | .drop => (s.countStream i StreamCounters.incDropped, 0)

/-- The descriptor of a matched copy (R50, R64). -/
def streamDesc (i : Byte) (e : StreamEntry) (c : Cls) (a : Arrival) : Desc :=
  { slot := a.slot, origin := .stream i, cls := c, late := e.late, maxWait := maxWaitOf e.maxWait
    stamp := some a.stamp, ingress := some a.port, length := a.length }

/-- Steps 7 and 8 for one copy (R49, R50). -/
def State.copyStep (i : Byte) (e : StreamEntry) (c : Cls) (a : Arrival) (acc : State × Nat) (p : Port) :
    State × Nat :=
  match acc.1.trafficAnswer p c with
  | .portNotUp => ((acc.1.copyDown i e c a p).1, acc.2 + (acc.1.copyDown i e c a p).2)
  | .atLimit => (acc.1.countStream i StreamCounters.incDropped, acc.2)
  | .noDescriptor => (acc.1.countStream i StreamCounters.incDropped, acc.2)
  | .accepted => (acc.1.append p c (streamDesc i e c a), acc.2 + 1)

/-- Steps 7 and 8: the copies in port order, and the slot's holders (R48 to R50). -/
def State.forwardMatched (s : State) (i : Byte) (e : StreamEntry) (c : Cls) (a : Arrival) : State :=
  let ports := s.routePorts e.route a
  if ports.contains a.port then s.dropCopy i a.slot
  else
    let r := ports.foldl (State.copyStep i e c a) (s, 0)
    r.1.settleSlot a.slot r.2

/-- Step 6 and the steps after it, under action FORWARD (R47). -/
def State.budgetAndForward (s : State) (i : Byte) (e : StreamEntry) (a : Arrival) : State :=
  match (s.budgetStep i e a).2 with
  | none => (s.budgetStep i e a).1.dropCopy i a.slot
  | some c => (s.budgetStep i e a).1.forwardMatched i e c a

/-- Step 5 and the steps after it (R46). -/
def State.actionStep (s : State) (i : Byte) (e : StreamEntry) (a : Arrival) : State :=
  match e.action with
  | .forward => s.budgetAndForward i e a
  | .drop => s.dropCopy i a.slot
  | .retain => s.captureFrame i e a

/-- The classification of a matched arrival (3.4). -/
def State.classifyMatched (s : State) (i : Byte) (e : StreamEntry) (a : Arrival) : State :=
  let s2 := s.countMatch i e a
  if e.maxLength.toNat < a.length then s2.dropCopy i a.slot
  else if (s2.monitorStep i e a).2 then (s2.monitorStep i e a).1.actionStep i e a
  else (s2.monitorStep i e a).1.dropCopy i a.slot

/-! ### Unmatched arrivals (R51) -/

/-- The descriptor of an unmatched copy (R51, R64). -/
def unmatchedDesc (a : Arrival) : Desc :=
  { slot := a.slot, origin := .unmatched, cls := 3, late := .drop, maxWait := none
    stamp := some a.stamp, ingress := some a.port, length := a.length }

/-- One copy of an unmatched frame (R51). -/
def State.unmatchedCopy (a : Arrival) (acc : State × Nat) (p : Port) : State × Nat :=
  match acc.1.trafficAnswer p 3 with
  | .accepted => (acc.1.append p 3 (unmatchedDesc a), acc.2 + 1)
  | .portNotUp => acc
  | .atLimit => acc
  | .noDescriptor => acc

/-- An unmatched arrival (R51). -/
def State.classifyUnmatched (s : State) (a : Arrival) : State :=
  let s1 := s.countPort a.port PortCounters.incUnmatched
  match s1.base.unmatched with
  | .drop => s1.releaseSlot a.slot
  | .forward =>
    if (s1.defaultRoute a).contains a.port then s1.releaseSlot a.slot
    else
      let r := (s1.defaultRoute a).foldl (State.unmatchedCopy a) (s1, 0)
      r.1.settleSlot a.slot r.2

/-- The classification event of an arrival: interception, then the stream table (R40 to R43, R51). -/
def State.classify (s : State) (a : Arrival) : State :=
  if s.intercepts a then
    if a.kind = kindRequest then s.intake a.port a.slot a.length
    else (s.countPort a.port PortCounters.incUnmatched).releaseSlot a.slot
  else match s.selectEntry a with
    | some (i, e) => s.classifyMatched i e a
    | none => s.classifyUnmatched a

end Sys2Proof.Machine
end

