-- ==== Sys2Proof/Machine/Ports.lean ====
section
/-! DEFINITION. The port units' events: receptions (R3 to R7), link checks and port loss (R9 to R12), the end of a
transmission (R102), and the port side of PORT CONTROL (R13, R14). -/

namespace Sys2Proof.Machine

open Sys2Proof

/-! ### Receptions -/

/-- Whether a port receives: out of reset and of a drain, the port UP, and nothing being received (R3, R8, R163). -/
def State.mayReceive (s : State) (p : Port) : Bool :=
  decide (s.power = .running) && s.isUp p && (s.port p).rx.isNone && s.mgmt.drain.isNone

/-- A reception begins: a slot from the free list and the start part of the stamp (R3). -/
def State.startReception (s : State) (p : Port) : State :=
  let t := s.takeSlot
  t.2.modPort p fun u => { u with
    rx := some { slot := t.1, kind := none, stamp := ⟨s.timer.round, s.timer.index, s.positionNow⟩
                 start := s.refCount, atTiming := decide (s.timingPort = p) } }

/-- The kind field of the reception on a port has been received: a SYNC goes on without its slot (R4). -/
def State.receiveKind (s : State) (p : Port) (kind : Byte) : State :=
  match (s.port p).rx with
  | none => s
  | some rx =>
    if rx.kind.isSome then s
    else if kind = kindSync then
      (s.modPort p fun u => { u with rx := some { rx with kind := some kind, slot := none } }).releaseSlot? rx.slot
    else s.modPort p fun u => { u with rx := some { rx with kind := some kind } }

/-- The outcome of the ingress checks (R5). -/
inductive Ingress where
  | arrival | lengthError | crcError
deriving DecidableEq, Repr

/-- The ingress checks, in order (R5). -/
def ingressCheck (bytes : List Byte) (kind : Byte) : Ingress :=
  if bytes.length < 32 ∨ 512 < bytes.length then .lengthError
  else if (crc32 (bytes.take (bytes.length - 4))).toNat ≠ numAt bytes (bytes.length - 4) 4 then .crcError
  else if frameLength bytes ≠ bytes.length then .lengthError
  else if !isFrameKind kind then .lengthError
  else if kind = kindSync ∧ frameLength bytes ≠ 32 then .lengthError
  else .arrival

/-- An arrival is handed on by its kind and port (R6). -/
def State.handOn (s : State) (p : Port) (rx : Reception) (kind : Byte) (bytes : List Byte) : State :=
  if kind = kindSync then
    if s.timingPort = p then s.syncArrival p rx (parseSync bytes)
    else s.countPort p PortCounters.incForeignSync
  else match rx.slot with
    | none => s
    | some slot => s.classify (s.arrivalIn p slot ⟨rx.stamp, s.timer.cycleCount⟩ kind bytes.length)

/-- The bytes received into the reception's slot (R3, R5): the first 512. -/
def State.storeBytes (s : State) (rx : Reception) (bytes : List Byte) : State :=
  match rx.slot with
  | none => s
  | some slot => s.writeSlot slot bytes

/-- The end of a reception that holds a slot or a SYNC capture (R5, R6). -/
def State.checkAndHandOn (s : State) (p : Port) (rx : Reception) (kind : Byte) (bytes : List Byte) : State :=
  let s1 := s.storeBytes rx bytes
  match ingressCheck bytes kind with
  | .lengthError => (s1.countPort p PortCounters.incLengthErrors).releaseSlot? rx.slot
  | .crcError => (s1.countPort p PortCounters.incCrcErrors).releaseSlot? rx.slot
  | .arrival => (s1.countPort p PortCounters.incReceived).handOn p rx kind bytes

/-- The reception that ends: its kind is the one that was received (R4), or the byte at offset 02h when the kind had not
been acted on before the end. -/
def State.finishKind (s : State) (p : Port) (bytes : List Byte) : State :=
  match bytes[2]? with
  | some k => s.receiveKind p k
  | none => s

/-- A reception ends (R4 to R6). -/
def State.endReception (s : State) (p : Port) (bytes : List Byte) : State :=
  let s1 := s.finishKind p bytes
  match (s1.port p).rx with
  | none => s
  | some rx =>
    let s2 := s1.modPort p fun u => { u with rx := none }
    let kind := rx.kind.getD 0
    if rx.slot.isNone ∧ kind ≠ kindSync then s2.countPort p PortCounters.incNoBuffer
    else s2.checkAndHandOn p rx kind bytes

/-! ### Port loss (R10 to R12) -/

/-- The transmission in flight is cut short (R11). -/
def State.cutTransmission (s : State) (p : Port) : State :=
  match (s.port p).tx with
  | none => s
  | some t =>
    let s1 := (s.modPort p fun u => { u with tx := none }).countPort p PortCounters.incAborted
    match t.sending with
    | .sync _ => s1
    | .desc d => State.dispose .aborted p s1 d

/-- A port leaves UP for DOWN (R10). -/
def State.losePort (s : State) (p : Port) : State :=
  let s1 := (((s.abandonReception p).cutTransmission p).disposeQueues p).emptyHolder p
  (s1.modPort p fun u => { u with good := 0, bad := 0 }).changePort p .down

/-! ### Link checks (R9, R14) -/

/-- Whether a link check of a port is due: 12,500 quanta after the last one, or after the reset (R9). -/
def State.linkCheckDue (s : State) (p : Port) : Bool :=
  decide ((s.port p).lastCheck + Config.linkCheckQuanta ≤ s.refCount)

/-- A port becomes UP: both counts 0, a start opportunity, and the end of a waiting ENABLE (R9, R14). -/
def State.bringUp (s : State) (p : Port) : State :=
  let waiting := (s.port p).qualCount.isSome
  let s1 := (((s.modPort p fun u => { u with good := 0, bad := 0, qualCount := none }).changePort p .up).raise p)
  if waiting then s1.completePortControl p .done none else s1

/-- A check that leaves a QUALIFYING port with an ENABLE waiting not UP: the 64th ends the ENABLE (R14). -/
def State.countQualification (s : State) (p : Port) : State :=
  match (s.port p).qualCount with
  | none => s
  | some n =>
    if Config.qualificationChecks ≤ n + 1 then
      ((s.modPort p fun u => { u with qualCount := none }).changePort p .down).completePortControl p .linkAbsent
        (some (.port p))
    else s.modPort p fun u => { u with qualCount := some (n + 1) }

/-- A link check of a port that is QUALIFYING or DOWN (R9). -/
def State.checkForUp (s : State) (p : Port) (good : Bool) : State :=
  let n := if good then (s.port p).good + 1 else 0
  if Config.checksInARow ≤ n then s.bringUp p
  else (s.modPort p fun u => { u with good := n }).countQualification p

/-- A link check of a port that is UP (R9). -/
def State.checkForLoss (s : State) (p : Port) (good : Bool) : State :=
  let n := if good then 0 else (s.port p).bad + 1
  if Config.checksInARow ≤ n then s.losePort p
  else s.modPort p fun u => { u with bad := n }

/-- A link check of a port (R9). -/
def State.linkCheck (s : State) (p : Port) (good : Bool) : State :=
  let s1 := s.modPort p fun u =>
    { u with lastCheck := u.lastCheck + Config.linkCheckQuanta, signalGood := good }
  match (s.port p).state with
  | .disabled => s1
  | .disabling => s1
  | .qualifying => s1.checkForUp p good
  | .down => s1.checkForUp p good
  | .up => s1.checkForLoss p good

/-! ### The end of a transmission (R102) -/

/-- A port's queues and holder are emptied as it becomes DISABLED (R13). -/
def State.shutPort (s : State) (p : Port) : State :=
  (((s.disposeQueues p).emptyHolder p).modPort p fun u => { u with good := 0, bad := 0 }).changePort p .disabled

/-- The counts and releases of a transmission that ends (R102, steps 1 to 4). -/
def State.releaseTransmission (s : State) (p : Port) (t : Transmission) : State :=
  let s1 := (s.countPort p PortCounters.incSent).modPort p fun u => { u with tx := none }
  match t.sending with
  | .sync _ => s1
  | .desc d =>
    match d.origin with
    | .stream i => (s1.countStream i StreamCounters.incForwarded).releaseSlot d.slot
    | .unmatched => s1.releaseSlot d.slot
    | .management => s1.releaseSlot d.slot

/-- What follows the end of a transmission by the port's state (R102 step 5, R13). -/
def State.afterTransmission (s : State) (p : Port) : State :=
  match (s.port p).state with
  | .up => s.raise p
  | .disabling => (s.shutPort p).completePortControl p .done none
  | .disabled => s
  | .qualifying => s
  | .down => s

/-- The transmission on a port ends (R102). -/
def State.endTransmission (s : State) (p : Port) : State :=
  match (s.port p).tx with
  | none => s
  | some t => (s.releaseTransmission p t).afterTransmission p

/-! ### The port side of PORT CONTROL (R13, R14) -/

/-- What a PORT CONTROL does at its execution: ends at once, must wait, or finds the port DISABLING. -/
inductive PortOutcome where
  | done (s : State)
  | waits (s : State)
  | busy

/-- A DISABLE at the port unit (R13). -/
def State.disablePort (s : State) (p : Port) : PortOutcome :=
  match (s.port p).state with
  | .disabled => .done s
  | .qualifying => .done ((s.modPort p fun u => { u with good := 0, bad := 0 }).changePort p .disabled)
  | .down => .done ((s.modPort p fun u => { u with good := 0, bad := 0 }).changePort p .disabled)
  | .up =>
    if (s.port p).tx.isNone then .done ((s.abandonReception p).shutPort p)
    else .waits (((s.abandonReception p).modPort p fun u => { u with good := 0, bad := 0 }).changePort p .disabling)
  | .disabling => .busy

/-- An ENABLE at the port unit (R14). -/
def State.enablePort (s : State) (p : Port) : PortOutcome :=
  match (s.port p).state with
  | .qualifying => .done s
  | .up => .done s
  | .down => .done s
  | .disabled =>
    .waits ((s.modPort p fun u => { u with good := 0, bad := 0, qualCount := some 0 }).changePort p .qualifying)
  | .disabling => .busy

/-- The port side of a PORT CONTROL. -/
def State.controlPort (s : State) (p : Port) (op : PortOp) : PortOutcome :=
  match op with
  | .enable => s.enablePort p
  | .disable => s.disablePort p

end Sys2Proof.Machine
end

