-- ==== Sys2Proof/Machine/Requests.lean ====
section
/-! DEFINITION. The execution of the eighteen request kinds (chapter 10), and their steps. -/

namespace Sys2Proof.Machine

open Sys2Proof

/-! ### Reading the part (R152 to R156) -/

/-- The data of IDENTIFY (R152). -/
def State.identifyData (s : State) : List Byte :=
  beBytes 2 5127 ++ beBytes 2 416 ++ [1, 3, 4] ++ beBytes 2 384 ++ beBytes 2 256 ++ [64, 32, s.straps.setWidth 8]

/-- The five bytes of a port-control slot in READ STATUS (12.2). The spec lists no code for EARLY_ACK there: 01h when
granted is the model's choice (notes/assumptions/31.md). -/
def portControlBytes : Option PortControl → List Byte
  | none => [0, 0, 0, 0xFF, 0]
  | some o => [o.requester] ++ beBytes 2 o.tag.toNat ++ [portOpCode o.op, flagByte o.early]

/-- The bytes of the commit state and slot in READ STATUS (12.2). The spec lists no code for EARLY_ACK there: 01h when
granted is the model's choice (notes/assumptions/31.md). -/
def commitBytes : Option Commit → List Byte
  | none => [0, 0xFF] ++ beBytes 2 0 ++ [0] ++ beBytes 2 0 ++ [0]
  | some c =>
    (match c.target with
      | .nextRound => [1, 0] ++ beBytes 2 0
      | .atRound r => [1, 1] ++ beBytes 2 r.toNat) ++
      [c.requester] ++ beBytes 2 c.tag.toNat ++ [flagByte c.early]

/-- The twelve queue depths, (A, 0) first. -/
def State.depthBytes (s : State) : List Byte :=
  s.queues.toList.flatMap fun q => q.toList.map fun ds => BitVec.ofNat 8 ds.length

/-- The data of READ STATUS (R153, 12.2). -/
def State.statusData (s : State) : List Byte :=
  s.ports.toList.map (fun u => portStateCode u.state) ++
    [syncStateCode s.timer.sync, BitVec.ofNat 8 s.timer.good] ++
    beBytes 4 s.positionNow ++ beBytes 4 s.timer.effLength ++
    [BitVec.ofNat 8 s.timer.index] ++ beBytes 2 s.timer.round.toNat ++ beBytes 4 s.timer.cycleCount.toNat ++
    signedBytes 2 s.timer.trim ++ signedBytes 4 s.timer.lastErr ++ beBytes 2 s.gen.number.toNat ++
    commitBytes s.gen.commit ++
    beBytes 2 s.store.free.length ++ beBytes 2 s.descsFree ++ s.depthBytes ++
    [BitVec.ofNat 8 s.retention.records.length] ++ beBytes 4 s.retention.overflow.toNat ++
    s.mgmt.portControl.toList.flatMap portControlBytes ++
    [BitVec.ofNat 8 s.mgmt.conditions.length, BitVec.ofNat 8 s.mgmt.requests.length]

/-- The seven counters of a stream index, 4 bytes each, in the order of R53. -/
def streamCounterBytes (c : StreamCounters) : List Byte :=
  [c.matched, c.forwarded, c.dropped, c.late, c.overBudget, c.duplicates, c.gaps].flatMap
    fun w => beBytes 4 w.toNat

/-- The 40 bytes of a stream index in READ STREAM COUNTERS (R154, 12.2). The spec lists no code for expectation present:
01h is the model's choice (notes/assumptions/31.md). -/
def streamStateBytes (st : StreamState) : List Byte :=
  streamCounterBytes st.counters ++
    (match st.stamp with
      | none => List.replicate 8 0
      | some x => [1] ++ beBytes 2 x.round.toNat ++ [BitVec.ofNat 8 x.index] ++ beBytes 4 x.position) ++
    beBytes 2 st.budgetUsed ++
    (match st.expectation with
      | none => [0, 0]
      | some x => [1, x])

/-- The bytes of READ STREAM COUNTERS for `count` indices from `first` on (R57). -/
def State.streamCounterData (s : State) (first count : Nat) : List Byte :=
  (List.range count).flatMap fun i => streamStateBytes (s.stream (BitVec.ofNat 8 (first + i)))

/-- Clears the seven counters of an index. -/
def State.clearStream (s : State) (i : Byte) : State := s.countStream i fun _ => StreamCounters.zero

/-- Clears the counters of `count` indices from `first` on (R57). -/
def State.clearStreams (s : State) (first count : Nat) : State :=
  (List.range count).foldl (fun s i => s.clearStream (BitVec.ofNat 8 (first + i))) s

/-- READ STREAM COUNTERS (R154). -/
def State.runReadStreamCounters (req : Request) (s : State) : State :=
  let first := (s.param req 0).toNat
  let count := (s.param req 1).toNat
  let flag := s.param req 2
  if count < 1 ∨ 12 < count then s.answerBare req .badParameter
  else if 256 < first + count then s.answerBare req .badParameter
  else if flag ≠ 0 ∧ flag ≠ 1 then s.answerBare req .badParameter
  else (if flag = 1 then s.clearStreams first count else s).answer req .done 0 (s.streamCounterData first count)

/-- The ten counters of a port in the order of R16. -/
def portCounterBytes (c : PortCounters) : List Byte :=
  [c.received, c.crcErrors, c.lengthErrors, c.noBuffer, c.unmatched, c.sent, c.aborted, c.foreignSync,
    c.syncReplaced, c.mgmtLost].flatMap fun w => beBytes 4 w.toNat

/-- Clears the ten counters of every port (R17). -/
def State.clearPorts (s : State) : State :=
  allPorts.foldl (fun s p => s.countPort p fun _ => PortCounters.zero) s

/-- READ PORT COUNTERS (R155). -/
def State.runReadPortCounters (req : Request) (s : State) : State :=
  let flag := s.param req 0
  if flag ≠ 0 ∧ flag ≠ 1 then s.answerBare req .badParameter
  else (if flag = 1 then s.clearPorts else s).answer req .done 0
    (s.ports.toList.flatMap fun u => portCounterBytes u.counters)

/-- The images of `count` entries of a list from `first` on. -/
def imagesOf {α : Type} (image : α → List Byte) (entries : List α) (first count : Nat) : List Byte :=
  ((entries.drop first).take count).flatMap image

/-- READ ENTRIES (R156). -/
def State.runReadEntries (req : Request) (s : State) : State :=
  let bankCode := s.param req 0
  let table := s.param req 1
  let first := (s.param req 2).toNat
  let count := (s.param req 3).toNat
  let bank := if bankCode = 0 then s.gen.active else s.gen.shadow
  if bankCode ≠ 0 ∧ bankCode ≠ 1 then s.answerBare req .badParameter
  else if table = 0 then
    if 1 ≤ count ∧ count ≤ 15 ∧ first + count ≤ 256 then
      s.answer req .done 0 (imagesOf streamImage bank.streams first count)
    else s.answerBare req .badParameter
  else if table = 1 then
    if 1 ≤ count ∧ count ≤ 30 ∧ first + count ≤ 64 then
      s.answer req .done 0 (imagesOf windowImage bank.windows first count)
    else s.answerBare req .badParameter
  else if table = 2 then
    if first = 0 ∧ count = 1 then s.answer req .done 0 (baseImage bank.base)
    else s.answerBare req .badParameter
  else s.answerBare req .badParameter

/-! ### Loading tables (R121, R122, R157) -/

/-- The parameter block of a request from an offset on, `n` bytes. -/
def State.paramBlock (s : State) (req : Request) (i n : Nat) : List Byte :=
  ((s.slotBytes req.slot req.length).drop (0x14 + i)).take n

/-- The `count` images of `size` bytes of a staging request (12.2). -/
def State.images (s : State) (req : Request) (size count : Nat) : List (List Byte) :=
  (List.range count).map fun k => s.paramBlock req (2 + size * k) size

/-- The place, in index order, of the first image that fails its encoding check. -/
def firstBadImage (ok : List Byte → Bool) (images : List (List Byte)) : Option Nat :=
  images.findIdx? fun bs => !ok bs

/-- Writes entries over consecutive places of a list. -/
def writeEntries {α : Type} (entries : List α) (first : Nat) (new : List α) : List α :=
  new.zipIdx.foldl (fun es e => es.set (first + e.2) e.1) entries

/-- Replaces the shadow bank. -/
def State.setShadow (s : State) (b : Bank) : State := { s with gen := { s.gen with shadow := b } }

/-- STAGE STREAM ENTRIES (R121, R157). -/
def State.runStageStreams (req : Request) (s : State) : State :=
  let first := (s.param req 0).toNat
  let count := (s.param req 1).toNat
  if count < 1 ∨ 15 < count ∨ 256 < first + count then s.answerBare req .badParameter
  else if s.gen.commit.isSome then s.answerBare req .commitPending
  else match firstBadImage streamEncodingOk (s.images req 32 count) with
    | some k => s.answer req .badParameter (first + k) []
    | none =>
      (s.setShadow { s.gen.shadow with
        streams := writeEntries s.gen.shadow.streams first ((s.images req 32 count).map streamOfImage) }).answerBare
        req .done

/-- STAGE WINDOW ENTRIES (R121, R157). -/
def State.runStageWindows (req : Request) (s : State) : State :=
  let first := (s.param req 0).toNat
  let count := (s.param req 1).toNat
  if count < 1 ∨ 30 < count ∨ 64 < first + count then s.answerBare req .badParameter
  else if s.gen.commit.isSome then s.answerBare req .commitPending
  else match firstBadImage windowEncodingOk (s.images req 16 count) with
    | some k => s.answer req .badParameter (first + k) []
    | none =>
      (s.setShadow { s.gen.shadow with
        windows := writeEntries s.gen.shadow.windows first ((s.images req 16 count).map windowOfImage) }).answerBare
        req .done

/-- STAGE BASE RECORD (R121, R157). -/
def State.runStageBase (req : Request) (s : State) : State :=
  let image := s.paramBlock req 0 64
  if s.gen.commit.isSome then s.answerBare req .commitPending
  else if baseEncodingOk image then
    (s.setShadow { s.gen.shadow with base := baseOfImage image }).answerBare req .done
  else s.answerBare req .badParameter

/-- COPY ACTIVE TO SHADOW (R122). -/
def State.runCopy (req : Request) (s : State) : State :=
  if s.gen.commit.isSome then s.answerBare req .commitPending
  else (s.setShadow s.gen.active).answerBare req .done

/-! ### COMMIT and CANCEL COMMIT (R124, R129, R158) -/

/-- Bit 0 of the request flags: EARLY_ACK (R171). -/
def Request.early (req : Request) : Bool := req.flags.getLsbD 0

/-- A valid COMMIT becomes PENDING: with early acknowledgement granted it is answered ACCEPTED at once, otherwise its frame
slot waits in the commit slot (R124, R142). -/
def State.acceptCommit (s : State) (req : Request) (target : Target) : State :=
  let early := req.early && s.earlyGranted
  let c : Commit :=
    { requester := req.requester, tag := req.tag, ingress := req.ingress, early := early, target := target
      slot := if early then none else some req.slot }
  let s1 := s.setCommit (some c)
  if early then s1.answerBare req .accepted else s1.setEngine .idle

/-- Whether an AT_ROUND target is too late (R124). -/
def State.tooLate (s : State) : Target → Bool
  | .nextRound => false
  | .atRound r => !roundAhead r s.timer.round

/-- The tests of R124 on a COMMIT with a listed target kind. -/
def State.decideCommit (s : State) (req : Request) (target : Target) : State :=
  if s.gen.commit.isSome then s.answerBare req .refusedBusy
  else if s.tooLate target then s.answerBare req .tooLate
  else match s.gen.shadow.validate with
    | some f => s.answer req .invalidTables f.index [f.table, BitVec.ofNat 8 f.check]
    | none => s.acceptCommit req target

/-- COMMIT (R124, R158). -/
def State.runCommit (req : Request) (s : State) : State :=
  let kind := s.param req 0
  if kind = 0 then s.decideCommit req .nextRound
  else if kind = 1 then s.decideCommit req (.atRound (BitVec.ofNat 16 (beNat (s.paramBlock req 1 2))))
  else s.answerBare req .badParameter

/-- CANCEL COMMIT (R129): the commit's own answer comes before the cancel's. -/
def State.runCancel (req : Request) (s : State) : State :=
  match s.gen.commit with
  | none => s.answerBare req .notPending
  | some _ => (s.completeCommit .cancelled none).answerBare req .done

/-! ### PORT CONTROL (R159) -/

/-- The operation of a code (12.2). -/
def portOpOfCode (b : Byte) : Option PortOp :=
  if b = 0 then some .enable else if b = 1 then some .disable else none

/-- A PORT CONTROL that must wait occupies its port's slot (R142). -/
def State.waitPortControl (s : State) (req : Request) (p : Port) (op : PortOp) (early : Bool) : State :=
  let o : PortControl :=
    { requester := req.requester, tag := req.tag, ingress := req.ingress, early := early, op := op
      slot := if early then none else some req.slot }
  let s1 := s.setPortControl p (some o)
  if early then s1.answerBare req .accepted else s1.setEngine .idle

/-- PORT CONTROL with listed codes (R159). -/
def State.decidePortControl (s : State) (req : Request) (p : Port) (op : PortOp) : State :=
  if (s.mgmt.portControl.get p).isSome then s.answerBare req .refusedBusy
  else match s.controlPort p op with
    | .done s1 => s1.answerBare req .done
    | .waits s1 => s1.waitPortControl req p op (req.early && s.earlyGranted)
    | .busy => s.answerBare req .refusedBusy

/-- PORT CONTROL (R159). -/
def State.runPortControl (req : Request) (s : State) : State :=
  match portOfCode (s.param req 0), portOpOfCode (s.param req 1) with
  | some p, some op => s.decidePortControl req p op
  | _, _ => s.answerBare req .badParameter

/-! ### The retention queue (R113 to R116, R161) -/

/-- RETRIEVE RETAINED (R113). -/
def State.runRetrieve (req : Request) (s : State) : State :=
  match s.retention.records with
  | [] => s.answerBare req .empty
  | r :: rest =>
    ((s.setRecords rest).releaseSlot r.slot).answer req .done (r.length - Config.retrieveBytes)
      (recordHeader r ++ s.slotBytes r.slot (min r.length Config.retrieveBytes))

/-- Why a requeue stopped (R114). -/
inductive StopCause where
  | none | empty | captured | portNotUp | atLimit | noDescriptor
deriving DecidableEq, Repr

/-- The code of a stop cause (12.6). -/
def stopCauseCode : StopCause → Byte
  | .none => 0
  | .empty => 1
  | .captured => 2
  | .portNotUp => 3
  | .atLimit => 4
  | .noDescriptor => 5

/-- The descriptor of a requeued record: its lateness clock restarts at the current cycle count (R114, R115). -/
def Record.toDesc (r : Record) (cycleCount : W32) : Desc :=
  { slot := r.slot, origin := .stream r.stream, cls := r.cls, late := .retain, maxWait := r.maxWait
    stamp := some ⟨r.stamp, cycleCount⟩, ingress := some r.ingress, length := r.length }

/-- What stops a requeue at a record (R114); none when its append is accepted. -/
def State.requeueStop (s : State) (r : Record) : Option StopCause :=
  if r.reason = .captured then some .captured
  else match r.egress with
    | none => some .captured
    | some p =>
      match s.trafficAnswer p r.cls with
      | .accepted => none
      | .portNotUp => some .portNotUp
      | .atLimit => some .atLimit
      | .noDescriptor => some .noDescriptor

/-- Moves one record into its queue (R114). -/
def State.requeueOne (s : State) (r : Record) (rest : List Record) : State :=
  match r.egress with
  | none => s
  | some p => (s.append p r.cls (r.toDesc s.timer.cycleCount)).setRecords rest

/-- Moves up to `n` records from the head; answers the state, the number moved and the stop cause (R114). -/
def State.requeue : (n : Nat) → (moved : Nat) → State → State × Nat × StopCause
  | 0, moved, s => (s, moved, .none)
  | n + 1, moved, s =>
    match s.retention.records with
    | [] => (s, moved, .empty)
    | r :: rest =>
      match s.requeueStop r with
      | some cause => (s, moved, cause)
      | none => State.requeue n (moved + 1) (s.requeueOne r rest)

/-- REQUEUE RETAINED (R114). -/
def State.runRequeue (req : Request) (s : State) : State :=
  let n := (s.param req 0).toNat
  if n = 0 ∨ 32 < n then s.answerBare req .badParameter
  else
    let r := State.requeue n 0 s
    r.1.answer req .done (n - r.2.1) [BitVec.ofNat 8 r.2.1, stopCauseCode r.2.2]

/-- Removes every retention record, head to tail, and releases its slot (R116, R118). -/
def State.flushRecords (s : State) : State :=
  s.retention.records.foldl (fun s r => s.releaseSlot r.slot) (s.setRecords [])

/-- FLUSH RETAINED (R116). -/
def State.runFlush (req : Request) (s : State) : State :=
  s.flushRecords.answer req .done 0 [BitVec.ofNat 8 s.retention.records.length]

/-! ### CLEAR COUNTERS, QUEUE RESET and DEVICE RESET (R155, R162, R163) -/

/-- Clears the seven counters of every stream index (R57). -/
def State.clearAllStreams (s : State) : State :=
  s.mapStreams fun st => { st with counters := StreamCounters.zero }

/-- CLEAR COUNTERS (R155). -/
def State.runClear (req : Request) (s : State) : State :=
  let scope := s.param req 0
  if scope = 0 then s.clearAllStreams.answerBare req .done
  else if scope = 1 then s.clearPorts.answerBare req .done
  else if scope = 2 then s.clearAllStreams.clearPorts.answerBare req .done
  else s.answerBare req .badParameter

/-- Discards the descriptors of one egress queue, head to tail, uncounted (R75). -/
def State.discardQueue (p : Port) (s : State) (c : Cls) : State :=
  (s.egress p c).foldl (fun s d => s.releaseSlot d.slot) (s.setEgress p c [])

/-- Discards the descriptors of the twelve egress queues, in port and class order (R75). -/
def State.discardQueues (s : State) : State :=
  allPorts.foldl (fun s p => allClasses.foldl (State.discardQueue p) s) s

/-- Empties the three SYNC holders (R162). -/
def State.emptyHolders (s : State) : State := allPorts.foldl State.emptyHolder s

/-- QUEUE RESET (R162): the discards, then the reply. -/
def State.runQueueReset (req : Request) (s : State) : State :=
  s.discardQueues.flushRecords.emptyHolders.answerBare req .done

/-- The drain that a DEVICE RESET begins: the queue its reply is accepted into, if it is (R106, R163). -/
def State.drainOf (s : State) (req : Request) : Drain :=
  { queue := if s.mgmtAnswer req.ingress s.mgmtClass = .accepted then some (req.ingress, s.mgmtClass) else none
    slot := req.slot }

/-- DEVICE RESET (R163): the reply DONE, the engine STOPPED, every reception abandoned, and the drain. R7 and R163 give no
order of the ports: that A, then B, then L gives its slot to the tail of the free list is the model's choice
(notes/assumptions/32.md). -/
def State.runDeviceReset (req : Request) (s : State) : State :=
  let s1 := (s.answerBare req .done).setEngine .stopped
  (allPorts.foldl State.abandonReception s1).setDrain (some (s.drainOf req))

/-! ### The steps of the request rows -/

/-- Whether a kind code is one given code. -/
def isKind (k : Byte) (b : Byte) : Bool := decide (b = k)

/-- UNKNOWN_REQUEST_KIND (R139, R171): the form test refuses the request. -/
def execUnknownRequestKind (s : State) : Host.Outcome State Fault Refusal :=
  .next (State.runRequest (fun b => !isRequestKind b) (fun req s => s.answerBare req .badRequest) s)

/-- IDENTIFY (R152). -/
def execIdentify (s : State) : Host.Outcome State Fault Refusal :=
  .next (State.runRequest (isKind 0x01) (fun req s => s.answer req .done 0 s.identifyData) s)

/-- READ STATUS (R153). -/
def execReadStatus (s : State) : Host.Outcome State Fault Refusal :=
  .next (State.runRequest (isKind 0x02) (fun req s => s.answer req .done 0 s.statusData) s)

/-- READ STREAM COUNTERS (R154). -/
def execReadStreamCounters (s : State) : Host.Outcome State Fault Refusal :=
  .next (State.runRequest (isKind 0x03) State.runReadStreamCounters s)

/-- READ PORT COUNTERS (R155). -/
def execReadPortCounters (s : State) : Host.Outcome State Fault Refusal :=
  .next (State.runRequest (isKind 0x04) State.runReadPortCounters s)

/-- READ ENTRIES (R156). -/
def execReadEntries (s : State) : Host.Outcome State Fault Refusal :=
  .next (State.runRequest (isKind 0x05) State.runReadEntries s)

/-- STAGE STREAM ENTRIES (R157). -/
def execStageStreamEntries (s : State) : Host.Outcome State Fault Refusal :=
  .next (State.runRequest (isKind 0x06) State.runStageStreams s)

/-- STAGE WINDOW ENTRIES (R157). -/
def execStageWindowEntries (s : State) : Host.Outcome State Fault Refusal :=
  .next (State.runRequest (isKind 0x07) State.runStageWindows s)

/-- STAGE BASE RECORD (R157). -/
def execStageBaseRecord (s : State) : Host.Outcome State Fault Refusal :=
  .next (State.runRequest (isKind 0x08) State.runStageBase s)

/-- COPY ACTIVE TO SHADOW (R122). -/
def execCopyActiveToShadow (s : State) : Host.Outcome State Fault Refusal :=
  .next (State.runRequest (isKind 0x09) State.runCopy s)

/-- COMMIT (R124). -/
def execCommit (s : State) : Host.Outcome State Fault Refusal :=
  .next (State.runRequest (isKind 0x0A) State.runCommit s)

/-- CANCEL COMMIT (R129). -/
def execCancelCommit (s : State) : Host.Outcome State Fault Refusal :=
  .next (State.runRequest (isKind 0x0B) State.runCancel s)

/-- PORT CONTROL (R159). -/
def execPortControl (s : State) : Host.Outcome State Fault Refusal :=
  .next (State.runRequest (isKind 0x0C) State.runPortControl s)

/-- RETRIEVE RETAINED (R113). -/
def execRetrieveRetained (s : State) : Host.Outcome State Fault Refusal :=
  .next (State.runRequest (isKind 0x0D) State.runRetrieve s)

/-- REQUEUE RETAINED (R114). -/
def execRequeueRetained (s : State) : Host.Outcome State Fault Refusal :=
  .next (State.runRequest (isKind 0x0E) State.runRequeue s)

/-- FLUSH RETAINED (R116). -/
def execFlushRetained (s : State) : Host.Outcome State Fault Refusal :=
  .next (State.runRequest (isKind 0x0F) State.runFlush s)

/-- CLEAR COUNTERS (R155). -/
def execClearCounters (s : State) : Host.Outcome State Fault Refusal :=
  .next (State.runRequest (isKind 0x10) State.runClear s)

/-- QUEUE RESET (R162). -/
def execQueueReset (s : State) : Host.Outcome State Fault Refusal :=
  .next (State.runRequest (isKind 0x11) State.runQueueReset s)

/-- DEVICE RESET (R163). -/
def execDeviceReset (s : State) : Host.Outcome State Fault Refusal :=
  .next (State.runRequest (isKind 0x12) State.runDeviceReset s)

end Sys2Proof.Machine
end

