-- ==== Sys2Proof/Machine/Events.lean ====
section
/-! DEFINITION. The steps of the event rows: receptions, link checks, cycle ends, window events and transmission ends. An
event that is not due, or cannot come about as the part stands, leaves the state as it is (notes/assumptions/5.md). -/

namespace Sys2Proof.Machine

open Sys2Proof

/-- RECEPTION_START (R3). -/
def execReceptionStart (p : Port) (s : State) : Host.Outcome State Fault Refusal :=
  .next (if s.mayReceive p then s.startReception p else s)

/-- KIND_FIELD_RECEIVED (R4). -/
def execKindFieldReceived (p : Port) (kind : Byte) (s : State) : Host.Outcome State Fault Refusal :=
  .next (if s.power = .running then s.receiveKind p kind else s)

/-- RECEPTION_END (R5). -/
def execReceptionEnd (p : Port) (bytes : List Byte) (s : State) : Host.Outcome State Fault Refusal :=
  .next (if s.power = .running then (s.endReception p bytes).settle else s)

/-- LINK_CHECK (R9). -/
def execLinkCheck (p : Port) (good : Bool) (s : State) : Host.Outcome State Fault Refusal :=
  .next (if s.power = .running ∧ s.linkCheckDue p = true then (s.linkCheck p good).settle else s)

/-- CYCLE_END (R20). -/
def execCycleEnd (s : State) : Host.Outcome State Fault Refusal :=
  .next (if s.power = .running ∧ s.cycleEndDue = true then s.cycleEnd.settle else s)

/-- WINDOW_EVENT (R79). -/
def execWindowEvent (p : Port) (s : State) : Host.Outcome State Fault Refusal :=
  .next (if s.power = .running ∧ s.windowEventDue p = true then (s.windowEvent p).settle else s)

/-- TRANSMISSION_END (R102). -/
def execTransmissionEnd (p : Port) (s : State) : Host.Outcome State Fault Refusal :=
  .next (if s.power = .running ∧ s.transmissionDue p = true then (s.endTransmission p).settle else s)

end Sys2Proof.Machine
end

