-- ==== Sys2Proof/Machine/Resets.lean ====
section
/-! DEFINITION. The resets: power-on, RESET_N and the end of a DEVICE RESET drain (R164 to R168). -/

namespace Sys2Proof.Machine

open Sys2Proof

/-- The values that every block takes at a reset: `portState` gives the port states, `straps` the latched strap value and
`epoch` the new reset epoch. The slot contents and the reference count go on as they were (R15, R18, R36, R58, R74, R94,
R107, R118, R132, R133, R150). -/
def State.resetBlocks (s : State) (portState : Port → PortState) (straps : BitVec 7) (epoch : Byte) : State :=
  { power := .running
    straps := straps
    refCount := s.refCount
    ports :=
      ⟨PortUnit.initial (portState .A) s.refCount s.ports.A.signalGood,
        PortUnit.initial (portState .B) s.refCount s.ports.B.signalGood,
        PortUnit.initial (portState .L) s.refCount s.ports.L.signalGood⟩
    timer := Timer.initial
    streams := List.replicate Config.streamEntries StreamState.initial
    store := FrameStore.initial s.store.mem
    queues := Trio.all (Quad.all [])
    gates := Trio.all GateUnit.initial
    retention := ⟨[], 0⟩
    gen := Generation.initial straps
    mgmt := Management.initial epoch
    opportunities := Trio.all false
    pending := s.pending }

/-- An advance of the reset epoch: from 255 it gives 1 (R149). -/
def nextEpoch (e : Byte) : Byte := if e = 255 then 1 else e + 1

/-- The power-on event (R165, R167): the epoch becomes 1. -/
def State.powerOnEvent (s : State) (straps : Nat) : State :=
  s.resetBlocks (fun _ => .qualifying) (BitVec.ofNat 7 straps) 1

/-- The pin reset event (R166, R167): the epoch advances. -/
def State.pinResetEvent (s : State) (straps : Nat) : State :=
  s.resetBlocks (fun _ => .qualifying) (BitVec.ofNat 7 straps) (nextEpoch s.mgmt.epoch)

/-- Whether the drain of a DEVICE RESET is complete: its reply waits no longer, and no transmitter is busy (R106). -/
def State.drainComplete (s : State) : Bool :=
  match s.mgmt.drain with
  | none => false
  | some d => !s.drainReplyWaits d && s.ports.toList.all fun u => u.tx.isNone

/-- A DEVICE RESET takes effect (R164): the values of a pin reset, but that DISABLED ports stay so and the straps are not
sampled. -/
def State.deviceResetEvent (s : State) : State :=
  s.resetBlocks (fun p => if (s.port p).state = .disabled then .disabled else .qualifying) s.straps
    (nextEpoch s.mgmt.epoch)

/-- The transmission in flight on a port stops at once, counted nowhere (R107, R166). Its descriptor and its hold on the
slot go with it (notes/assumptions/9.md). -/
def State.stopTransmission (s : State) (p : Port) : State :=
  match (s.port p).tx with
  | none => s
  | some t =>
    let s1 := s.modPort p fun u => { u with tx := none }
    match t.sending with
    | .sync _ => s1
    | .desc d => s1.releaseSlot d.slot

/-- The part halts: transmissions stop, receptions are abandoned, and a drain ends without its reset (R165, R166). The order
of the ports is the model's choice (notes/assumptions/32.md). -/
def State.halt (s : State) : State :=
  let s1 := allPorts.foldl State.stopTransmission s
  (allPorts.foldl State.abandonReception s1).setDrain none

/-- POWER_ON (R165): the release of the hold is the power-on event; with RESET_N low it leaves the part in reset until
RESET_N rises. -/
def execPowerOn (straps : Nat) (s : State) : Host.Outcome State Fault Refusal :=
  .next (match s.power with
    | .hold false => s.powerOnEvent straps
    | .hold true => s.setPower .awaitRise
    | .awaitRise => s
    | .running => s
    | .resetLow => s)

/-- RESET_N_ASSERTION (R166). -/
def execResetNAssertion (s : State) : Host.Outcome State Fault Refusal :=
  .next (match s.power with
    | .running => s.halt.setPower .resetLow
    | .hold _ => s.setPower (.hold true)
    | .awaitRise => s
    | .resetLow => s)

/-- PIN_RESET (R165, R166): the rise of RESET_N is the pin reset event, or the power-on event when the hold was released
with RESET_N low. -/
def execPinReset (straps : Nat) (s : State) : Host.Outcome State Fault Refusal :=
  .next (match s.power with
    | .resetLow => s.pinResetEvent straps
    | .awaitRise => s.powerOnEvent straps
    | .hold _ => s.setPower (.hold false)
    | .running => s)

/-- DEVICE_RESET_EFFECT (R164). -/
def execDeviceResetEffect (s : State) : Host.Outcome State Fault Refusal :=
  .next (if s.power = .running ∧ s.drainComplete = true then s.deviceResetEvent else s)

/-- POWER_ON_HOLD (R165): the part enters the power-on reset hold; RESET_N keeps its level. -/
def execPowerOnHold (s : State) : Host.Outcome State Fault Refusal :=
  .next (match s.power with
    | .running => s.halt.setPower (.hold false)
    | .resetLow => s.setPower (.hold true)
    | .awaitRise => s.setPower (.hold true)
    | .hold _ => s)

end Sys2Proof.Machine
end

