-- ==== Sys2Proof/Machine/Clock.lean ====
section
/-! DEFINITION. What the part does while no command waits: the timing reference counts quanta, the engine takes requests,
and the events that have become due are put in the queue (notes/assumptions/4.md). -/

namespace Sys2Proof.Machine

open Sys2Proof

/-- The event of one port if it is due. -/
def duePorts (due : Port → Bool) (event : Port → Instr) : List Instr := (allPorts.filter due).map event

/-- The command of the step that runs a request kind. -/
def requestCommand (kind : Byte) : Instr :=
  match kind.toNat with
  | 0x01 => .identify
  | 0x02 => .readStatus
  | 0x03 => .readStreamCounters
  | 0x04 => .readPortCounters
  | 0x05 => .readEntries
  | 0x06 => .stageStreamEntries
  | 0x07 => .stageWindowEntries
  | 0x08 => .stageBaseRecord
  | 0x09 => .copyActiveToShadow
  | 0x0A => .commit
  | 0x0B => .cancelCommit
  | 0x0C => .portControl
  | 0x0D => .retrieveRetained
  | 0x0E => .requeueRetained
  | 0x0F => .flushRetained
  | 0x10 => .clearCounters
  | 0x11 => .queueReset
  | 0x12 => .deviceReset
  | _ => .unknownRequestKind

/-- The step of the engine's current request. -/
def engineEvents : Engine → List Instr
  | .executing req _ => [requestCommand req.kind]
  | .idle => []
  | .stopped => []

/-- The events that are due as the part stands. Where several are due together the spec allows either order; this list
gives one (notes/assumptions/4.md). -/
def State.dueEvents (s : State) : List Instr :=
  if s.power = .running then
    duePorts s.transmissionDue .transmissionEnd ++ duePorts s.windowEventDue .windowEvent ++
      (if s.cycleEndDue then [.cycleEnd] else []) ++
      duePorts s.linkCheckDue (fun p => .linkCheck p (s.port p).signalGood) ++
      (if s.drainComplete then [.deviceResetEffect] else []) ++
      engineEvents s.mgmt.engine
  else []

/-- One quantum of the timing reference: the reference count and the position increase by one (R18, R19). -/
def State.countQuantum (s : State) : State :=
  { s with refCount := s.refCount + 1, timer := { s.timer with position := s.timer.position + 1 } }

/-- The step of the block when no command waits. Out of reset, due events are put in the queue; when none is due, one
quantum passes and an IDLE engine takes a waiting request. In reset nothing counts (R165, R166). -/
def State.idleStep (s : State) : State :=
  if s.power = .running then
    match s.dueEvents with
    | [] => s.countQuantum.take
    | e :: es => { s with pending := e :: es }
  else s

end Sys2Proof.Machine
end

