-- ==== Sys2Proof/Machine/Dispatch.lean ====
section
/-! DEFINITION. The meaning of each command: one arm per constructor of Instr. -/

namespace Sys2Proof.Machine

open Sys2Proof

def exec (i : Instr) (s : State) : Host.Outcome State Fault Refusal :=
  match i with
  | .powerOn straps => Sys2Proof.Machine.execPowerOn straps s
  | .resetNAssertion => Sys2Proof.Machine.execResetNAssertion s
  | .pinReset straps => Sys2Proof.Machine.execPinReset straps s
  | .receptionStart port => Sys2Proof.Machine.execReceptionStart port s
  | .kindFieldReceived port kind => Sys2Proof.Machine.execKindFieldReceived port kind s
  | .receptionEnd port bytes => Sys2Proof.Machine.execReceptionEnd port bytes s
  | .linkCheck port good => Sys2Proof.Machine.execLinkCheck port good s
  | .cycleEnd => Sys2Proof.Machine.execCycleEnd s
  | .windowEvent port => Sys2Proof.Machine.execWindowEvent port s
  | .transmissionEnd port => Sys2Proof.Machine.execTransmissionEnd port s
  | .unknownRequestKind => Sys2Proof.Machine.execUnknownRequestKind s
  | .identify => Sys2Proof.Machine.execIdentify s
  | .readStatus => Sys2Proof.Machine.execReadStatus s
  | .readStreamCounters => Sys2Proof.Machine.execReadStreamCounters s
  | .readPortCounters => Sys2Proof.Machine.execReadPortCounters s
  | .readEntries => Sys2Proof.Machine.execReadEntries s
  | .stageStreamEntries => Sys2Proof.Machine.execStageStreamEntries s
  | .stageWindowEntries => Sys2Proof.Machine.execStageWindowEntries s
  | .stageBaseRecord => Sys2Proof.Machine.execStageBaseRecord s
  | .copyActiveToShadow => Sys2Proof.Machine.execCopyActiveToShadow s
  | .commit => Sys2Proof.Machine.execCommit s
  | .cancelCommit => Sys2Proof.Machine.execCancelCommit s
  | .portControl => Sys2Proof.Machine.execPortControl s
  | .retrieveRetained => Sys2Proof.Machine.execRetrieveRetained s
  | .requeueRetained => Sys2Proof.Machine.execRequeueRetained s
  | .flushRetained => Sys2Proof.Machine.execFlushRetained s
  | .clearCounters => Sys2Proof.Machine.execClearCounters s
  | .queueReset => Sys2Proof.Machine.execQueueReset s
  | .deviceReset => Sys2Proof.Machine.execDeviceReset s
  | .deviceResetEffect => Sys2Proof.Machine.execDeviceResetEffect s
  | .powerOnHold => Sys2Proof.Machine.execPowerOnHold s

end Sys2Proof.Machine
end

