-- ==== Sys2Proof/Safety.lean ====
section
/-! DEFINITION. What the claims speak of: how a request finds the engine, what a reply does, what a reset leaves, and the
invariants that every step keeps. -/

namespace Sys2Proof

/-- The commands that a part in reset still takes: the changes of its supply, its reference and RESET_N (R165, R166). -/
def Instr.isPowerCommand : Instr → Bool
  | .powerOn _ => true
  | .resetNAssertion => true
  | .pinReset _ => true
  | .powerOnHold => true
  | .deviceResetEffect => false
  | .receptionStart _ => false
  | .kindFieldReceived _ _ => false
  | .receptionEnd _ _ => false
  | .linkCheck _ _ => false
  | .cycleEnd => false
  | .windowEvent _ => false
  | .transmissionEnd _ => false
  | .unknownRequestKind => false
  | .identify => false
  | .readStatus => false
  | .readStreamCounters => false
  | .readPortCounters => false
  | .readEntries => false
  | .stageStreamEntries => false
  | .stageWindowEntries => false
  | .stageBaseRecord => false
  | .copyActiveToShadow => false
  | .commit => false
  | .cancelCommit => false
  | .portControl => false
  | .retrieveRetained => false
  | .requeueRetained => false
  | .flushRetained => false
  | .clearCounters => false
  | .queueReset => false
  | .deviceReset => false

/-- Whether a command can be the moment of a reset: the power-on event, the pin reset event, or a DEVICE RESET's effect. -/
def Instr.isReset : Instr → Bool
  | .powerOn _ => true
  | .pinReset _ => true
  | .deviceResetEffect => true
  | .resetNAssertion => false
  | .powerOnHold => false
  | .receptionStart _ => false
  | .kindFieldReceived _ _ => false
  | .receptionEnd _ _ => false
  | .linkCheck _ _ => false
  | .cycleEnd => false
  | .windowEvent _ => false
  | .transmissionEnd _ => false
  | .unknownRequestKind => false
  | .identify => false
  | .readStatus => false
  | .readStreamCounters => false
  | .readPortCounters => false
  | .readEntries => false
  | .stageStreamEntries => false
  | .stageWindowEntries => false
  | .stageBaseRecord => false
  | .copyActiveToShadow => false
  | .commit => false
  | .cancelCommit => false
  | .portControl => false
  | .retrieveRetained => false
  | .requeueRetained => false
  | .flushRetained => false
  | .clearCounters => false
  | .queueReset => false
  | .deviceReset => false

end Sys2Proof

namespace Sys2Proof.Machine

open Sys2Proof

/-! ### Requests and replies -/

/-- The engine's current request is `req`, `held` tells whether its requester held a condition entry at the take, and `s1`
is the state with the request taken: the engine was EXECUTING it already, or was IDLE and takes it from the head of the
request queue (R139). -/
def State.Takes (s s1 : State) (req : Request) (held : Bool) : Prop :=
  s.power = .running ∧
    ((s.mgmt.engine = .executing req held ∧ s1 = s) ∨
      (s.mgmt.engine = .idle ∧ ∃ rest, s.mgmt.requests = req :: rest ∧ held = s.holdsCondition req.requester ∧
        s1 = (s.setRequests rest).setEngine (.executing req held)))

/-- A request that passes the take's tests: no condition, correct form, and its frame in a slot of the store (R139). -/
def State.Runs (s s1 : State) (req : Request) : Prop :=
  s.Takes s1 req false ∧ s1.formOk req = true ∧ req.slot < Config.slots

/-- The answered list with one record added: from a list of 8 the oldest leaves first (R141). -/
def remember (l : List Answer) (a : Answer) : List Answer :=
  (if Config.answerRecords ≤ l.length then l.tail else l) ++ [a]

/-- What building the reply `r` in slot `slot` and appending it on port `p` makes of `s` (R68, R136), with `m` the
management state afterwards. The reply's bytes stand in the slot and no other byte of the frame store changes; and the
reply has joined the tail of the management-class queue, or has been dropped, counted and its slot released. Nothing else
changes. -/
def State.ReplyQueued (s u : State) (p : Port) (slot : Nat) (r : Reply) (m : Management) : Prop :=
  (∀ a, readByte u.store.mem a =
    if slotBase slot ≤ a ∧ a < slotBase slot + replyLength r then
      byteAt (replyBytes r s.base.node s.mgmt.epoch s.gen.number) (a - slotBase slot)
    else readByte s.store.mem a) ∧
  ∃ d, d = (if s.mgmtAnswer p s.mgmtClass = .accepted then
        s.append p s.mgmtClass (mgmtDesc slot s.mgmtClass (replyLength r))
      else (s.countPort p PortCounters.incMgmtLost).releaseSlot slot) ∧
    u = { d with store := { d.store with mem := u.store.mem }, mgmt := m }

/-- The management state once the engine has recorded its answer to `req` and gone to `e` (R140, R141). -/
def Management.answeredTo (m : Management) (req : Request) (status : Status) (e : Engine) : Management :=
  { m with engine := e, answered := remember m.answered ⟨req.requester, req.tag, req.kind, status⟩ }

/-- The reply to `req` with a status, a residue and data, and no flag set (R136). -/
def State.plainReply (s : State) (req : Request) (status : Status) (residue : Nat) (data : List Byte) : Reply :=
  { requester := req.requester, streamTag := frameTag (s.slotBytes req.slot 16)
    sequence := frameSeq (s.slotBytes req.slot 16), tag := req.tag, kind := req.kind, status := status
    isRepeat := false, isCond := false, residue := residue, data := data }

/-- The command `c`, on `s`, changes the part to `s2`, then builds and queues the reply with the status, residue and data
that its rule gives, records it, returns to IDLE, and takes the start opportunities that arose. -/
def Answers (c : Instr) (s s2 : State) (req : Request) (status : Status) (residue : Nat) (data : List Byte) : Prop :=
  ∃ u, exec c s = .next u.settle ∧
    s2.ReplyQueued u req.ingress req.slot (s2.plainReply req status residue data)
      (s2.mgmt.answeredTo req status .idle)

/-! ### Releases and disposals -/

/-- The slots of some releases, in order, that join the free list, from the counts before them: each at the release that
brings its count from 1 to 0 (R63). -/
def freedBy (count : Nat → Nat) : List Nat → List Nat
  | [] => []
  | n :: ns => (if count n = 1 then [n] else []) ++ freedBy (fun m => if m = n then count m - 1 else count m) ns

/-- What releasing some slots, one after another, makes of the frame store (R63). -/
def State.Released (s u : State) (slots : List Nat) : Prop :=
  u.store.mem = s.store.mem ∧ u.store.count.length = s.store.count.length ∧
  (∀ n, u.slotCount n = s.slotCount n - slots.count n) ∧
  u.store.free = s.store.free ++ freedBy s.slotCount slots

/-- The stream index of a copy, where it has one (R64). -/
def Desc.stream? (d : Desc) : Option Byte :=
  match d.origin with
  | .stream i => some i
  | .unmatched => none
  | .management => none

/-- The copies that a disposal drops, in order, when retention has room for so many records: it offers those of stream
origin under RETAIN, and drops those it refuses and every other copy (R72, R110). -/
def droppedOf : (room : Nat) → List Desc → List Desc
  | _, [] => []
  | room, d :: ds =>
    if d.stream?.isSome ∧ d.late = .retain ∧ 0 < room then droppedOf (room - 1) ds else d :: droppedOf room ds

/-- What disposing of some copies that have left their queues or the transmitter of port `p`, in order and each with its
reason, makes of `s` (R63, R64, R72, R110, R111). Those that retention takes become records; of the others the slots are
released, the streams count dropped, and the port counts management frames lost. -/
def State.Disposed (s u : State) (p : Port) (copies : List (Desc × Reason)) : Prop :=
  let room := 32 - s.retention.records.length
  let offered := copies.filterMap fun x =>
    match x.1.origin with
    | .stream i => if x.1.late = .retain then some (x.1.toRecord i x.2 p) else none
    | .unmatched => none
    | .management => none
  let dropped := droppedOf room (copies.map Prod.fst)
  let records := s.retention.records ++ offered.take room
  let rises := s.retention.records.length < s.base.highMark.toNat ∧ s.base.highMark.toNat ≤ records.length
  s.Released u (dropped.map Desc.slot) ∧
  u = { s with
    store := u.store
    mgmt := if rises then (s.noticeEvent .retentionHigh).mgmt else s.mgmt
    retention := ⟨records, s.retention.overflow + BitVec.ofNat 32 (offered.length - room)⟩
    streams := s.streams.mapIdx fun j st => { st with counters := { st.counters with
      dropped := st.counters.dropped +
        BitVec.ofNat 32 (dropped.countP fun d => decide (d.stream?.map BitVec.toNat = some j)) } }
    ports := s.ports.set p { s.port p with counters := { (s.port p).counters with
      mgmtLost := (s.port p).counters.mgmtLost +
        BitVec.ofNat 32 (dropped.countP fun d => decide (d.origin = .management)) } } }

/-! ### The schedule -/

/-- Whether the part is running, not held (R83). -/
def State.Running (s : State) : Prop :=
  s.base.unlocked = .runLocal ∨ s.timer.sync = .locked ∨ s.timer.sync = .holdover

/-- The records that port `p` opens of the windows in use, active in the current cycle and chosen by `due`, in index order;
none while the part is held (R77, R78, R83). -/
def State.Opens (s : State) (p : Port) (due : WindowEntry × Nat → Prop) (windows : List OpenWindow) : Prop :=
  (¬ s.Running → windows = []) ∧
  (s.Running → ∃ chosen : List (WindowEntry × Nat), windows = chosen.map (fun w : WindowEntry × Nat =>
      { index := w.2, classes := w.1.classes, guarded := w.1.guarded, exclusive := w.1.exclusive
        close := if w.1.closeOffset.toNat < s.timer.effLength then .at w.1.closeOffset.toNat else .cycleEnd }) ∧
    (chosen.map Prod.snd).Pairwise (· < ·) ∧
    ∀ w, w ∈ chosen ↔ w ∈ s.gen.active.windows.zipIdx ∧ w.1.valid = true ∧ w.1.port = p ∧
      (w.1.indexMatch = 0xFF ∨ w.1.indexMatch.toNat = s.timer.index) ∧
      s.timer.round.toNat % w.1.modulus.toNat = w.1.residue.toNat ∧ due w)

/-- Whether a window covers a position: it opens at or before it, and closes after it (R84, R92). -/
def State.Spans (s : State) (position : Nat) (w : WindowEntry × Nat) : Prop :=
  w.1.openOffset.toNat ≤ position ∧ (position < w.1.closeOffset.toNat ∨ s.timer.effLength ≤ w.1.closeOffset.toNat)

/-- The port's windows leave, with the lateness check of every queue that one of them names, in class order, when `check`,
and as a withdrawal when not (R88, R90, R92). -/
def State.closePort (check : Bool) (p : Port) (s : State) : State :=
  let removed := { s with gates := s.gates.set p { s.gates.get p with windows := [] } }
  let named := ([0, 1, 2, 3] : List Cls).filter fun c =>
    (s.gates.get p).windows.any fun o => o.classes.getLsbD c.val
  if check then named.foldl (State.checkQueue p) removed else removed

/-- What the gate controller makes of `s` at a cycle end or a step event (R90, R92): every port's windows are removed, in
port order, with lateness checks when `check`; the windows chosen by `due` open; the gates and bounds are those they give;
and a port with an open gate has a start opportunity (R82). -/
def State.Renewed (s u : State) (check : Bool) (due : WindowEntry × Nat → Prop) : Prop :=
  let closed := ((s.closePort check .A).closePort check .B).closePort check .L
  u = { closed with gates := u.gates, opportunities := u.opportunities } ∧
  ∀ p, s.Opens p due (u.gates.get p).windows ∧
    (∀ c, (u.gates.get p).gate.get c = u.gateOpen p c ∧ (u.gates.get p).bound.get c = u.guardBound p c) ∧
    (u.opportunities.get p = true ↔
      closed.opportunities.get p = true ∨ ∃ c, (u.gates.get p).gate.get c = true)

/-- What the gate controller makes of `s` at a correction, when the part was running before it (`was`) or held (R84). At a
change the windows of every port are withdrawn, without lateness checks, or those that cover the position open beside any
open one; the gates are evaluated; and a gate that opens, or whose bound is raised or removed, is a start opportunity
(R82). -/
def State.SyncEvent (s u : State) (was : Prop) : Prop :=
  ((was ↔ s.Running) → u = s) ∧
  (¬ (was ↔ s.Running) →
    u = { s with gates := u.gates, opportunities := u.opportunities } ∧
    ∀ p, (¬ s.Running → (u.gates.get p).windows = []) ∧
      (s.Running → ∃ opened, (u.gates.get p).windows = (s.gates.get p).windows ++ opened ∧
        s.Opens p (fun w => s.Spans (min s.timer.position (s.timer.effLength - 1)) w ∧
          ∀ o ∈ (s.gates.get p).windows, o.index ≠ w.2) opened) ∧
      (∀ c, (u.gates.get p).gate.get c = u.gateOpen p c ∧ (u.gates.get p).bound.get c = u.guardBound p c) ∧
      (u.opportunities.get p = true ↔
        s.opportunities.get p = true ∨ ∃ c, (u.gates.get p).gate.get c = true ∧
          ((s.gates.get p).gate.get c = false ∨
            ∃ b, (s.gates.get p).bound.get c = some b ∧ ∀ b', (u.gates.get p).bound.get c = some b' → b < b')))

/-! ### The cycle timer -/

/-- The cycle timer after the count and the missed-sync accounting of a cycle end (R20, steps 1 to 5, and R30). -/
def Timer.counted (b : BaseRecord) (t : Timer) : Timer :=
  let index := if b.cyclesPerRound.toNat ≤ t.index + 1 then 0 else t.index + 1
  let missed := min 65535 (t.missed + 1)
  { t with
    cycleCount := t.cycleCount + 1
    index := index
    round := if index = 0 then t.round + 1 else t.round
    position := 0
    used := false
    sync :=
      if t.used then t.sync
      else match t.sync with
        | .free => .free
        | .acquiring => if 16 ≤ missed then .free else .acquiring
        | .locked => if 4 ≤ missed then .holdover else .locked
        | .holdover => if b.holdoverLimit.toNat ≤ missed then .free else .holdover
    good := if t.used = false ∧ t.sync = .acquiring ∧ 16 ≤ missed then 0 else t.good
    missed :=
      if t.used then t.missed
      else if t.sync = .locked ∧ 4 ≤ missed then 0 else missed }

/-- The cycle timer once the effective length of the cycle that begins is fixed (R21). -/
def Timer.lengthFixed (b : BaseRecord) (t : Timer) : Timer :=
  let acc := t.residue + t.trim
  { t with
    residue := acc - acc.tdiv 256 * 256
    effLength := ((b.cycleLength.toNat : Int) + acc.tdiv 256 + t.slew.getD 0).toNat
    slew := none }

/-- `s` with the cycle timer `t`; a change of the sync state is a SYNC_STATE event (R32). -/
def State.retimed (s : State) (t : Timer) : State :=
  if t.sync = s.timer.sync then { s with timer := t } else State.noticeEvent { s with timer := t } .syncState

/-- A cycle end that leaves the timer, the banks and the commit slot as `b` has them goes on with the gates under the
unlocked policy of the finishing cycle (R90), the budgets (R55), and, unless the engine is STOPPED, a try of each notice
kind in order (R147). -/
def State.CycleEndsAs (s b : State) : Prop :=
  let g := State.gatesCycleEnd s.base.unlocked b
  let r := { g with streams := g.streams.map fun st => { st with budgetUsed := 0 } }
  exec .cycleEnd s = .next (State.settle
    (if s.mgmt.engine = .stopped then r
      else (((r.tryNotice .syncState).tryNotice .portState).tryNotice .generation).tryNotice .retentionHigh))

/-- The error of a usable SYNC, from the stamp of its start and the expected position `e`, and the local (round, cycle
index) it is compared with: the three rows of R25, one of which applies, once. How far an index at or above cycles per
round carries, and that an error still beyond half a cycle stays so, are the model's choices (notes/assumptions/29.md and
33.md). -/
def ErrorRow (b : BaseRecord) (stamp : Stamp) (e : Nat) (err : Int) (adjusted : W16 × Nat) : Prop :=
  let l := b.cycleLength.toNat
  let h := l / 2
  let n := b.cyclesPerRound.toNat
  let raw : Int := (stamp.position : Int) - e
  ((h : Int) < raw ∧ err = raw - l ∧
      adjusted = (stamp.round + BitVec.ofNat 16 ((stamp.index + 1) / n), (stamp.index + 1) % n)) ∨
  (-(h : Int) ≤ raw ∧ raw ≤ h ∧ err = raw ∧ adjusted = (stamp.round, stamp.index)) ∨
  (raw < -(h : Int) ∧ err = raw + l ∧
      adjusted = if stamp.index = 0 then (stamp.round - 1, n - 1) else (stamp.round, stamp.index - 1))

/-- The SYNC `h` that arrived on port `p` is copied into the holder of each other port that is UP (R33). -/
def State.SyncCopied (s u : State) (p : Port) (h : HeldSync) : Prop :=
  u = { s with ports := u.ports, opportunities := u.opportunities } ∧
  ∀ q, (q ≠ p → (s.port q).state = .up →
      u.port q = { s.port q with
        holder := some h
        counters := if (s.port q).holder = none then (s.port q).counters else (s.port q).counters.incSyncReplaced } ∧
      u.opportunities.get q = true) ∧
    (q = p ∨ (s.port q).state ≠ .up → u.port q = s.port q ∧ u.opportunities.get q = s.opportunities.get q)

/-! ### Validation -/

/-- Check `n` of a list, counted from 1, is the first that fails (R125). -/
def FirstFails (checks : List Prop) (n : Nat) : Prop :=
  ∃ c, 1 ≤ n ∧ checks[n - 1]? = some c ∧ ¬ c ∧ ∀ j x, j + 1 < n → checks[j]? = some x → x

/-- The checks of a base record, in the order of R125. -/
def BaseRecord.Conditions (b : BaseRecord) : List Prop :=
  let stations := b.stations.toList.take b.stationCount.toNat
  [ 6250 ≤ b.cycleLength.toNat ∧ b.cycleLength.toNat ≤ 1250000,
    1 ≤ b.cyclesPerRound.toNat ∧ b.cyclesPerRound.toNat ≤ 64,
    b.linkDelay.toNat < b.cycleLength.toNat,
    1 ≤ b.lockWindow.toNat ∧ b.lockWindow.toNat ≤ 1000,
    b.lockWindow.toNat < b.stepThreshold.toNat ∧ 2 * b.stepThreshold.toNat < b.cycleLength.toNat,
    1 ≤ b.holdoverLimit.toNat,
    ∀ p c, 1 ≤ ((b.limits.get p).get c).toNat ∧ ((b.limits.get p).get c).toNat ≤ 128,
    1 ≤ b.mgmtClass.toNat ∧ b.mgmtClass.toNat ≤ 3,
    b.stationCount.toNat ≤ 4 ∧ (∀ x ∈ stations, 1 ≤ x.toNat ∧ x.toNat ≤ 253 ∧ x ≠ b.node) ∧ stations.Nodup,
    b.node.toNat ≤ 253,
    b.noticePort.toNat ≤ 2,
    1 ≤ b.highMark.toNat ∧ b.highMark.toNat ≤ 32 ]

/-- The checks of a valid window entry under a base record, in the order of R125. -/
def WindowEntry.Conditions (b : BaseRecord) (w : WindowEntry) : List Prop :=
  [ w.openOffset.toNat < w.closeOffset.toNat ∧ w.closeOffset.toNat ≤ b.cycleLength.toNat,
    w.classes ≠ 0,
    w.indexMatch = 0xFF ∨ w.indexMatch.toNat < b.cyclesPerRound.toNat,
    w.modulus = 1 ∨ w.modulus = 2 ∨ w.modulus = 4 ∨ w.modulus = 8 ∨ w.modulus = 16,
    w.residue.toNat < w.modulus.toNat ]

/-- The checks of a valid stream entry, in the order of R125. -/
def StreamEntry.Conditions (e : StreamEntry) : List Prop :=
  [ e.ports ≠ 0,
    e.kinds ≠ 0,
    e.tagLow.toNat ≤ e.tagHigh.toNat,
    e.budget = 0 ∨ 64 ≤ e.budget.toNat,
    32 ≤ e.maxLength.toNat ∧ e.maxLength.toNat ≤ 512,
    e.maxWait = 0xFF ∨ e.maxWait.toNat ≤ 15,
    ¬ ((e.route = .port .A ∧ e.ports = 1) ∨ (e.route = .port .B ∧ e.ports = 2) ∨ (e.route = .port .L ∧ e.ports = 4)) ]

/-! ### Resets -/

/-- What a reset leaves (R15, R17, R36, R58, R74, R94, R107, R118, R132, R149, R150): the port states, straps and epoch are
given, the slot contents and the reference count are those of before. -/
def State.AfterReset (s t : State) (portState : Port → PortState) (straps : BitVec 7) (epoch : Byte) : Prop :=
  t.power = .running ∧ t.straps = straps ∧ t.refCount = s.refCount ∧ t.pending = s.pending ∧
  (∀ p, (t.port p).state = portState p ∧ (t.port p).good = 0 ∧ (t.port p).bad = 0 ∧ (t.port p).qualCount = none ∧
    (t.port p).counters = ⟨0, 0, 0, 0, 0, 0, 0, 0, 0, 0⟩ ∧ (t.port p).holder = none ∧ (t.port p).tx = none ∧
    (t.port p).rx = none ∧ (t.port p).lastCheck = s.refCount) ∧
  (∀ p c, t.egress p c = []) ∧
  t.timer = { position := 0, effLength := 125000, index := 0, round := 0, cycleCount := 0, trim := 0, residue := 0
              slew := none, sync := .free, good := 0, missed := 0, used := false, lastErr := 0 } ∧
  t.streams = List.replicate Config.streamEntries ⟨⟨0, 0, 0, 0, 0, 0, 0⟩, none, 0, none⟩ ∧
  t.store.mem = s.store.mem ∧ t.store.count = List.replicate Config.slots 0 ∧ t.store.free = List.range Config.slots ∧
  (∀ p, (t.gates.get p).windows = [] ∧ ∀ c, (t.gates.get p).gate.get c = true ∧ (t.gates.get p).bound.get c = none) ∧
  t.retention = ⟨[], 0⟩ ∧
  t.gen = ⟨Bank.initial straps, Bank.initial straps, 0, none⟩ ∧
  t.mgmt = { requests := [], engine := .idle, answered := [], portControl := ⟨none, none, none⟩, conditions := []
             notices := ⟨⟨false, 0⟩, ⟨false, 0⟩, ⟨false, 0⟩, ⟨false, 0⟩⟩, noticeSeq := 0, epoch := epoch
             drain := none }

/-! ### Invariants -/

/-- The bounds of the lists (R66, R65, R110, R137, R141). -/
def State.WithinBounds (s : State) : Prop :=
  (∀ p c, (s.egress p c).length ≤ 128) ∧ s.descsInUse ≤ 512 ∧ s.retention.records.length ≤ 32 ∧
    s.mgmt.requests.length ≤ 8 ∧ s.mgmt.answered.length ≤ 8

/-- The slots that hold requests: waiting, executing or outstanding (R60). -/
def State.requestSlots (s : State) : List Nat :=
  s.mgmt.requests.map Request.slot ++
  (match s.mgmt.engine with | .executing req _ => [req.slot] | .idle => [] | .stopped => []) ++
  (s.mgmt.portControl.toList.filterMap fun o => o.bind PortControl.slot) ++
  (s.gen.commit.bind Commit.slot).toList

/-- The slots that something holds, one entry for each hold (R60). -/
def State.holders (s : State) : List Nat :=
  (s.ports.toList.filterMap fun u => u.rx.bind Reception.slot) ++
  (s.queues.toList.flatMap fun q => q.toList.flatMap fun ds => ds.map Desc.slot) ++
  (s.ports.toList.filterMap fun u => u.tx.bind fun t => match t.sending with | .desc d => some d.slot | .sync _ => none) ++
  s.retention.records.map Record.slot ++ s.requestSlots

/-- The law of the frame store (R60, R65): every slot is on the free list with count 0, or off it with a count of 1 or 2
that is the number of its holders; a reception or a request is its slot's only holder, and a reception of kind SYNC
holds none (R4). -/
def State.SlotLaw (s : State) : Prop :=
  s.store.count.length = 384 ∧ s.store.free.Nodup ∧
  (∀ n ∈ s.store.free, n < 384) ∧ (∀ n ∈ s.holders, n < 384) ∧
  (∀ n < 384, s.slotCount n = s.holders.count n ∧ s.slotCount n ≤ 2 ∧ (n ∈ s.store.free ↔ s.slotCount n = 0)) ∧
  (∀ p rx n, (s.port p).rx = some rx → rx.slot = some n → s.slotCount n = 1 ∧ rx.kind ≠ some kindSync) ∧
  (∀ n ∈ s.requestSlots, s.slotCount n = 1)

/-- The active bank has passed the validation of its commit, or is the default; a pending commit's bank stands validated in
the shadow (R39, R122, R125, R133). -/
def State.BanksValid (s : State) : Prop :=
  s.gen.active.validate = none ∧ (s.gen.commit.isSome = true → s.gen.shadow.validate = none)

/-- The gates and bounds that stand recorded are those of the windows that are open (R81, R82, R85). -/
def State.GatesCurrent (s : State) : Prop :=
  ∀ p c, (s.gates.get p).gate.get c = s.gateOpen p c ∧ (s.gates.get p).bound.get c = s.guardBound p c

/-- Every frame waits in the queue of its own class (R64, R66). -/
def State.QueuedByClass (s : State) : Prop := ∀ p c, ∀ d ∈ s.egress p c, d.cls = c

/-- The ranges of the cycle timer's state (the table of chapter 2). -/
def State.TimerInRange (s : State) : Prop :=
  -32767 ≤ s.timer.trim ∧ s.timer.trim ≤ 32767 ∧ -255 ≤ s.timer.residue ∧ s.timer.residue ≤ 255 ∧
    s.timer.good ≤ 8 ∧ s.timer.missed ≤ 65535

/-- The ranges of the count under the bank in use (the table of chapter 2; R19, R21, R26): the cycle index is below cycles
per round; the position runs up to the effective length, where the cycle end is due; the effective length lies within 128
and a quarter of L of L; and a pending slew is smaller than a quarter of L. -/
def State.CountInRange (s : State) : Prop :=
  let l := s.base.cycleLength.toNat
  s.timer.index < s.base.cyclesPerRound.toNat ∧ s.timer.position ≤ s.timer.effLength ∧
    3 * l ≤ 4 * s.timer.effLength + 512 ∧ 4 * s.timer.effLength ≤ 5 * l + 512 ∧
    ∀ x, s.timer.slew = some x → 4 * x.natAbs < l

/-- The early operations and conditions stay within four, with at most one condition for each requester, and exactly the
operations that were granted early acknowledgement keep no frame slot (R142, R144). -/
def State.EarlyLaw (s : State) : Prop :=
  s.mgmt.conditions.length + s.earlyOps ≤ 4 ∧ (s.mgmt.conditions.map Condition.requester).Nodup ∧
    (∀ c, s.gen.commit = some c → (c.slot = none ↔ c.early = true)) ∧
    (∀ p o, s.mgmt.portControl.get p = some o → (o.slot = none ↔ o.early = true))

end Sys2Proof.Machine
end

