-- ==== Sys2Proof/Certificates/Slice0/Obligations.lean ====
section
/-! DEFINITION. The statements for the provers, in the order of the spec's chapters. -/

open Sys2Proof Sys2Proof.Machine

/-- A step takes the command at the front of the queue and is its execution on the state with the rest of the queue.
-/
def Obligations.StepRunsTheFrontCommand : Prop :=
  ∀ (s : State) (c : Instr) (rest : List Instr), s.pending = c :: rest →
    step s = exec c { s with pending := rest }

/-- The step on an empty queue (R18, R19, R139): in reset nothing counts; out of reset the events that are due go into
the queue, and when none is due one quantum passes and an IDLE engine takes a waiting request. The events: the end of
a transmission whose occupation has passed (R102), a window event (R79), the cycle end (R19), a link check (R9), the
effect of a DEVICE RESET whose drain is complete (R106), and the step of the engine's current request (R139). That
this is what a step on an empty queue does, and the order of events due together, is the model's choice
(notes/assumptions/4.md). -/
def Obligations.EmptyQueueStep : Prop :=
  ∀ s : State, s.pending = [] →
    (s.power ≠ .running → step s = .next s) ∧
    (s.power = .running → s.dueEvents ≠ [] → step s = .next { s with pending := s.dueEvents }) ∧
    (s.power = .running → s.dueEvents = [] →
      step s = .next { s with
        refCount := s.refCount + 1
        timer := { s.timer with position := s.timer.position + 1 }
        mgmt :=
          match s.mgmt.engine, s.mgmt.requests with
          | .idle, q :: rest =>
            { s.mgmt with requests := rest, engine := .executing q (s.holdsCondition q.requester) }
          | _, _ => s.mgmt }) ∧
    (s.power = .running →
      (∀ c, c ∈ s.dueEvents ↔
        (∃ p x, c = .transmissionEnd p ∧ (s.port p).tx = some x ∧ x.start + x.occupation ≤ s.refCount) ∨
        (∃ p, c = .windowEvent p ∧ 0 < s.timer.position ∧ s.timer.position < s.timer.effLength ∧
          ((∃ o ∈ (s.gates.get p).windows, o.close = .at s.timer.position) ∨
            (s.Running ∧ ∃ w ∈ s.gen.active.windows.zipIdx, w.1.valid = true ∧ w.1.port = p ∧
              w.1.activeIn s.timer.round s.timer.index = true ∧ w.1.openOffset.toNat = s.timer.position ∧
              ∀ o ∈ (s.gates.get p).windows, o.index ≠ w.2))) ∨
        (c = .cycleEnd ∧ s.timer.effLength ≤ s.timer.position) ∨
        (∃ p, c = .linkCheck p (s.port p).signalGood ∧ (s.port p).lastCheck + 12500 ≤ s.refCount) ∨
        (c = .deviceResetEffect ∧ (∀ p, (s.port p).tx = none) ∧ ∃ d, s.mgmt.drain = some d ∧
          ∀ p k, d.queue = some (p, k) → ∀ x ∈ s.egress p k, x.origin = .management → x.slot ≠ d.slot) ∨
        (∃ req held, s.mgmt.engine = .executing req held ∧ c = requestCommand req.kind)) ∧
      s.dueEvents.Pairwise fun a b =>
        let rank : Instr → Nat := fun c =>
          match c with
          | .transmissionEnd p => portBit p
          | .windowEvent p => 3 + portBit p
          | .cycleEnd => 6
          | .linkCheck p _ => 7 + portBit p
          | .deviceResetEffect => 10
          | _ => 11
        rank a < rank b) ∧
    (List.range 18).map (fun k => requestCommand (BitVec.ofNat 8 (k + 1))) =
      [.identify, .readStatus, .readStreamCounters, .readPortCounters, .readEntries, .stageStreamEntries,
        .stageWindowEntries, .stageBaseRecord, .copyActiveToShadow, .commit, .cancelCommit, .portControl,
        .retrieveRetained, .requeueRetained, .flushRetained, .clearCounters, .queueReset, .deviceReset] ∧
    ∀ k : Byte, k.toNat = 0 ∨ 18 < k.toNat → requestCommand k = .unknownRequestKind

/-- Every command completes from every state, and none touches the queue of waiting commands. That a command answers
from every state, also an event that is not due, a request step without its request, or a command to a part in reset,
which leave the state as it is, is the model's choice (notes/assumptions/5.md); so is the queue of waiting commands
itself (notes/assumptions/26.md). -/
def Obligations.EveryCommandAnswersAndKeepsTheQueue : Prop :=
  ∀ (c : Instr) (s : State), ∃ t, exec c s = .next t ∧ t.pending = s.pending

/-- RESET_N going low, and the power-on reset hold, halt the part at once (R107, R165, R166), and while the part is in
reset no other command changes anything: that such a command is answered, and leaves the state as it is, is the
model's choice (notes/assumptions/5.md). What becomes of a stopped transmission's slot is the model's reading
(notes/assumptions/9.md). -/
def Obligations.ResetHaltsThePart : Prop :=
  ∀ s : State,
    (s.power = .running →
      (∃ t, exec .resetNAssertion s = .next t ∧ t.power = .resetLow ∧
        (∀ p, t.port p = { s.port p with tx := none, rx := none }) ∧ t.store.mem = s.store.mem ∧
        t = { s with power := .resetLow, ports := t.ports, store := t.store, mgmt := { s.mgmt with drain := none } }) ∧
      (∃ t, exec .powerOnHold s = .next t ∧ t.power = .hold false ∧
        (∀ p, t.port p = { s.port p with tx := none, rx := none }) ∧ t.store.mem = s.store.mem ∧
        t = { s with
          power := .hold false, ports := t.ports, store := t.store, mgmt := { s.mgmt with drain := none } })) ∧
    (s.power ≠ .running →
      (∀ c : Instr, c.isPowerCommand = false → exec c s = .next s) ∧ (s.pending = [] → step s = .next s)) ∧
    (∀ low v, s.power = .hold low →
      exec .resetNAssertion s = .next { s with power := .hold true } ∧
      exec (.pinReset v) s = .next { s with power := .hold false }) ∧
    (s.power = .resetLow ∨ s.power = .awaitRise → exec .powerOnHold s = .next { s with power := .hold true })

/-- The power-on event and the pin reset event set every block (R15, R17, R36, R58, R74, R94, R107, R118, R132, R133,
R149, R150, R165, R166, R167), the banks to the defaults of R133. That the reference count goes on as it was
(notes/assumptions/7.md) and that a given strap value above 127 is taken modulo 128 (notes/assumptions/27.md) are the
model's choices. -/
def Obligations.PowerOnAndPinResetSetEveryBlock : Prop :=
  ∀ (s : State) (v : Nat),
    (s.power = .hold false → ∃ t, exec (.powerOn v) s = .next t ∧
      s.AfterReset t (fun _ => .qualifying) (BitVec.ofNat 7 v) 1) ∧
    (s.power = .hold true → exec (.powerOn v) s = .next { s with power := .awaitRise }) ∧
    (s.power = .awaitRise → ∃ t, exec (.pinReset v) s = .next t ∧
      s.AfterReset t (fun _ => .qualifying) (BitVec.ofNat 7 v) 1) ∧
    (s.power = .resetLow → ∃ t, exec (.pinReset v) s = .next t ∧
      s.AfterReset t (fun _ => .qualifying) (BitVec.ofNat 7 v)
        (if s.mgmt.epoch = 255 then 1 else s.mgmt.epoch + 1)) ∧
    ∀ straps : BitVec 7,
      (Bank.initial straps).streams.length = 256 ∧ (Bank.initial straps).windows.length = 64 ∧
      (∀ e ∈ (Bank.initial straps).streams, e.valid = false ∧ streamImage e = List.replicate 32 0) ∧
      (∀ w ∈ (Bank.initial straps).windows, w.valid = false ∧ windowImage w = List.replicate 16 0) ∧
      (Bank.initial straps).base =
        { cycleLength := 125000, cyclesPerRound := 8, timingPort := .A, unlocked := .runLocal, linkDelay := 0
          lockWindow := 16, stepThreshold := 250, holdoverLimit := 1000, scheduled := ⟨0, 0, 0⟩
          limits := ⟨⟨32, 32, 32, 32⟩, ⟨32, 32, 32, 32⟩, ⟨32, 32, 32, 32⟩⟩, mgmtClass := 2, stationCount := 0
          stations := ⟨0, 0, 0, 0⟩, unmatched := .forward, uplink := .A, node := straps.setWidth 8
          managerPresent := false, manager := 0, noticeKinds := 0, noticePort := 0, highMark := 24, spare := 0 }

/-- A DEVICE RESET takes effect when its drain is complete (R106, R164): as a pin reset, but that DISABLED ports stay
so and the straps are not sampled. That DEVICE_RESET_EFFECT before then leaves the state as it is, is the model's
choice (notes/assumptions/5.md). -/
def Obligations.DeviceResetTakesEffect : Prop :=
  ∀ (s : State) (d : Drain), s.power = .running →
    let waits := ∃ p c x, d.queue = some (p, c) ∧ x ∈ s.egress p c ∧ x.origin = .management ∧ x.slot = d.slot
    (s.mgmt.drain = some d → ¬ waits → (∀ p, (s.port p).tx = none) →
      ∃ t, exec .deviceResetEffect s = .next t ∧
        s.AfterReset t (fun p => if (s.port p).state = .disabled then .disabled else .qualifying) s.straps
          (if s.mgmt.epoch = 255 then 1 else s.mgmt.epoch + 1)) ∧
    (s.mgmt.drain = none ∨ (s.mgmt.drain = some d ∧ (waits ∨ ∃ p, (s.port p).tx ≠ none)) →
      exec .deviceResetEffect s = .next s)

/-- What only some commands may change: the reset epoch (R149), the strap value (R167), the cycle timer (R20, R27,
R36), and the reference count, which no command moves (R18). That a reset leaves the reference count too is the
model's choice (notes/assumptions/7.md). -/
def Obligations.EpochStrapsAndTimerChangeOnlyAtTheirEvents : Prop :=
  ∀ (c : Instr) (s t : State), exec c s = .next t →
    (c.isReset = false → t.mgmt.epoch = s.mgmt.epoch) ∧
    (t.mgmt.epoch = s.mgmt.epoch ∨ t.mgmt.epoch = 1 ∨ (s.mgmt.epoch ≠ 255 ∧ t.mgmt.epoch = s.mgmt.epoch + 1)) ∧
    (s.mgmt.epoch ≠ 0 → t.mgmt.epoch ≠ 0) ∧
    ((∀ v, c ≠ .powerOn v ∧ c ≠ .pinReset v) → t.straps = s.straps) ∧
    ((∀ p bytes, c ≠ .receptionEnd p bytes) → c ≠ .cycleEnd → c.isReset = false → t.timer = s.timer) ∧
    (c ≠ .cycleEnd → c.isReset = false → t.timer.cycleCount = s.timer.cycleCount) ∧
    ((∃ p k, c = .receptionStart p ∨ c = .kindFieldReceived p k ∨ c = .windowEvent p) ∨ c.isReset = true ∨
      c.isPowerCommand = true → t.store.mem = s.store.mem) ∧
    t.refCount = s.refCount

/-- A reception start takes the slot at the head of the free list, or none, and the start part of the stamp (R3, R8, R19,
R61, R163). The position in the stamp of a start at the quantum of a cycle end that is not taken yet is the model's
reading (notes/assumptions/6.md). -/
def Obligations.ReceptionStartTakesTheHeadSlot : Prop :=
  ∀ (s : State) (p : Port), s.power = .running →
    ((s.port p).state = .up → (s.port p).rx = none → s.mgmt.drain = none →
      exec (.receptionStart p) s = .next (State.modPort { s with
        store :=
          match s.store.free with
          | [] => s.store
          | n :: rest => { s.store with free := rest, count := s.store.count.set n 1 } } p fun u => { u with
        rx := some { slot := s.store.free.head?, kind := none
                     stamp := ⟨s.timer.round, s.timer.index, s.positionNow⟩, start := s.refCount
                     atTiming := decide (s.timingPort = p) } })) ∧
    ((s.port p).state ≠ .up ∨ s.mgmt.drain ≠ none → exec (.receptionStart p) s = .next s)

/-- The kind field settles whether the reception goes on with its slot (R4); a reception without a slot is lost at its
end, unless it is a SYNC; and an end that finds the kind field not acted on acts on it first (the model's reading,
notes/assumptions/11.md). -/
def Obligations.KindFieldSettlesTheSlot : Prop :=
  ∀ (s : State) (p : Port) (rx : Reception) (k : Byte) (bytes : List Byte), s.power = .running →
    (s.port p).rx = some rx →
    (rx.kind = none → k = 0x02 → exec (.kindFieldReceived p k) s = .next
      ((s.modPort p fun u => { u with rx := some { rx with kind := some k, slot := none } }).releaseSlot? rx.slot)) ∧
    (rx.kind = none → k ≠ 0x02 → exec (.kindFieldReceived p k) s = .next
      (s.modPort p fun u => { u with rx := some { rx with kind := some k } })) ∧
    (rx.slot = none → (rx.kind = none ∧ bytes.length ≤ 2 ∨ rx.kind = some k ∧ k ≠ 0x02) →
      exec (.receptionEnd p bytes) s = .next
        (s.modPort p fun u => { u with rx := none, counters := u.counters.incNoBuffer }).settle) ∧
    (rx.kind = none → bytes[2]? = some k →
      ∃ s', exec (.kindFieldReceived p k) s = .next s' ∧
        exec (.receptionEnd p bytes) s = exec (.receptionEnd p bytes) s')

/-- A reception that fails an ingress check is counted and its slot released (R5). -/
def Obligations.FailedReceptionIsDiscarded : Prop :=
  ∀ (s : State) (p : Port) (rx : Reception) (k : Byte) (bytes : List Byte) (inc : PortCounters → PortCounters),
    s.power = .running → (s.port p).rx = some rx → rx.kind = some k → (rx.slot ≠ none ∨ k = 0x02) →
    (((bytes.length < 32 ∨ 512 < bytes.length) ∧ inc = PortCounters.incLengthErrors) ∨
      (32 ≤ bytes.length ∧ bytes.length ≤ 512 ∧
        (crc32 (bytes.take (bytes.length - 4))).toNat ≠ numAt bytes (bytes.length - 4) 4 ∧
        inc = PortCounters.incCrcErrors) ∨
      (32 ≤ bytes.length ∧ bytes.length ≤ 512 ∧
        (crc32 (bytes.take (bytes.length - 4))).toNat = numAt bytes (bytes.length - 4) 4 ∧
        (numAt bytes 6 2 ≠ bytes.length ∨ ¬(1 ≤ k.toNat ∧ k.toNat ≤ 5) ∨ (k = 0x02 ∧ numAt bytes 6 2 ≠ 32)) ∧
        inc = PortCounters.incLengthErrors)) →
    exec (.receptionEnd p bytes) s = .next
      ((((s.modPort p fun u => { u with rx := none }).storeBytes rx bytes).countPort p inc).releaseSlot? rx.slot).settle

/-- A SYNC arrival on the timing port is copied to the other UP ports, whether or not the servo uses it; on another
port it is a foreign SYNC (R6, R23, R33). -/
def Obligations.SyncArrivalIsCopiedOrForeign : Prop :=
  ∀ (s : State) (p : Port) (rx : Reception) (bytes : List Byte), s.power = .running → (s.port p).rx = some rx →
    rx.kind = some 0x02 → rx.slot = none → ingressCheck bytes 0x02 = .arrival →
    (s.timingPort ≠ p → exec (.receptionEnd p bytes) s = .next
      (s.modPort p fun u => { u with rx := none, counters := u.counters.incReceived.incForeignSync }).settle) ∧
    (s.timingPort = p → ∃ u : State, exec (.receptionEnd p bytes) s = .next u.settle ∧
      (∀ q, q ≠ p → (s.port q).state = .up →
        (u.port q).holder = some ⟨parseSync bytes, rx.start⟩ ∧ u.opportunities.get q = true) ∧
      (∀ q, q = p ∨ (s.port q).state ≠ .up → (u.port q).holder = (s.port q).holder) ∧
      (rx.atTiming = false ∨ s.base.cyclesPerRound.toNat ≤ (parseSync bytes).index.toNat →
        u = { s with ports := u.ports, opportunities := u.opportunities } ∧
        u.port p = { s.port p with rx := none, counters := (s.port p).counters.incReceived } ∧
        (∀ q, q ≠ p → (s.port q).state = .up →
          u.port q = { s.port q with
            holder := some ⟨parseSync bytes, rx.start⟩
            counters :=
              if (s.port q).holder = none then (s.port q).counters else (s.port q).counters.incSyncReplaced }) ∧
        (∀ q, q ≠ p → (s.port q).state ≠ .up → u.port q = s.port q) ∧
        (∀ q, q = p ∨ (s.port q).state ≠ .up → u.opportunities.get q = s.opportunities.get q)))

/-- A usable SYNC within the step threshold, out of FREE, corrects the trim and the slew and moves the sync state (R22
to R26, R29); the gates follow a change between held and running (R84); and the SYNC is copied to the other ports
(R33). The error is normalised once, by the three rows of R25. Two points are the model's choice: how far a local index at
or above cycles per round carries (notes/assumptions/29.md), and that an error still beyond half a cycle after one row
is left so (notes/assumptions/33.md). -/
def Obligations.ServoCorrects : Prop :=
  ∀ (s : State) (p : Port) (rx : Reception) (bytes : List Byte) (err : Int) (k e : Nat) (adjusted : W16 × Nat),
    s.power = .running → (s.port p).rx = some rx → rx.kind = some 0x02 → rx.slot = none →
    ingressCheck bytes 0x02 = .arrival → s.timingPort = p → rx.atTiming = true →
    (parseSync bytes).index.toNat < s.base.cyclesPerRound.toNat →
    k = ((parseSync bytes).correction.toNat + s.base.linkDelay.toNat) / s.base.cycleLength.toNat →
    e = ((parseSync bytes).correction.toNat + s.base.linkDelay.toNat) % s.base.cycleLength.toNat →
    ErrorRow s.base rx.stamp e err adjusted →

    adjusted = ((parseSync bytes).round +
        BitVec.ofNat 16 (((parseSync bytes).index.toNat + k) / s.base.cyclesPerRound.toNat),
      ((parseSync bytes).index.toNat + k) % s.base.cyclesPerRound.toNat) →
    err.natAbs ≤ s.base.stepThreshold.toNat → s.timer.sync ≠ .free →
    let arrived := s.modPort p fun u => { u with rx := none, counters := u.counters.incReceived }
    let v := arrived.retimed { s.timer with
        missed := 0
        used := true
        lastErr := err
        trim := max (-32767) (min 32767 (s.timer.trim + 4 * err))
        slew := some (err.tdiv 2)
        sync :=
          match s.timer.sync with
          | .free => .free
          | .acquiring =>
            if err.natAbs ≤ s.base.lockWindow.toNat ∧ 8 ≤ s.timer.good + 1 then .locked else .acquiring
          | .locked => .locked
          | .holdover => if err.natAbs ≤ s.base.lockWindow.toNat then .locked else .acquiring
        good :=
          match s.timer.sync with
          | .free => s.timer.good
          | .acquiring =>
            if err.natAbs ≤ s.base.lockWindow.toNat then (if 8 ≤ s.timer.good + 1 then 8 else s.timer.good + 1) else 0
          | .locked => s.timer.good
          | .holdover => if err.natAbs ≤ s.base.lockWindow.toNat then s.timer.good else 0 }
    ∃ w u t : State, exec (.receptionEnd p bytes) s = .next t ∧ t = u.settle ∧
      v.SyncEvent w s.Running ∧ w.SyncCopied u p ⟨parseSync bytes, rx.start⟩ ∧
      t.store = s.store ∧ t.streams = s.streams ∧ t.retention = s.retention ∧ t.gen = s.gen ∧ t.straps = s.straps ∧
      t.mgmt = { s.mgmt with notices := t.mgmt.notices } ∧ t.timer = v.timer

/-- A usable SYNC in FREE, beyond the step threshold, or with a count mismatch steps the count to the landing point
(R24, R25, R27, R29). The gates take up the landing cycle, with lateness checks under RUN_LOCAL and by a withdrawal
under HOLD_SCHEDULED (R92), a pending AT_ROUND commit that the step reached or passed fails MISSED_ROUND (R128), and
the SYNC is copied to the other ports (R33). Three points are the model's choice: how far a local index at or above
cycles per round carries (notes/assumptions/29.md), that the gates come before generation control
(notes/assumptions/30.md), and that R25 normalises once (notes/assumptions/33.md). -/
def Obligations.ServoSteps : Prop :=
  ∀ (s : State) (p : Port) (rx : Reception) (bytes : List Byte) (err : Int) (k e sum : Nat) (adjusted : W16 × Nat),
    s.power = .running → (s.port p).rx = some rx → rx.kind = some 0x02 → rx.slot = none →
    ingressCheck bytes 0x02 = .arrival → s.timingPort = p → rx.atTiming = true →
    (parseSync bytes).index.toNat < s.base.cyclesPerRound.toNat →
    k = ((parseSync bytes).correction.toNat + s.base.linkDelay.toNat) / s.base.cycleLength.toNat →
    e = ((parseSync bytes).correction.toNat + s.base.linkDelay.toNat) % s.base.cycleLength.toNat →
    ErrorRow s.base rx.stamp e err adjusted →

    (s.timer.sync = .free ∨ s.base.stepThreshold.toNat < err.natAbs ∨
      adjusted ≠ ((parseSync bytes).round +
          BitVec.ofNat 16 (((parseSync bytes).index.toNat + k) / s.base.cyclesPerRound.toNat),
        ((parseSync bytes).index.toNat + k) % s.base.cyclesPerRound.toNat)) →
    sum = e + (s.refCount - rx.start) →
    let arrived := s.modPort p fun u => { u with rx := none, counters := u.counters.incReceived }
    let cycles := ((parseSync bytes).index.toNat + k) % s.base.cyclesPerRound.toNat + sum / s.base.cycleLength.toNat
    let v := arrived.retimed { s.timer with
        position := sum % s.base.cycleLength.toNat
        index := cycles % s.base.cyclesPerRound.toNat
        round := (parseSync bytes).round +
          BitVec.ofNat 16 (((parseSync bytes).index.toNat + k) / s.base.cyclesPerRound.toNat) +
          BitVec.ofNat 16 (cycles / s.base.cyclesPerRound.toNat)
        effLength := s.base.cycleLength.toNat
        residue := 0
        slew := none
        used := true
        missed := 0
        lastErr := err
        sync := .acquiring
        good := 0 }
    let reached := fun r : W16 => let ahead := (r.toNat + 65536 - v.timer.round.toNat) % 65536
      ahead = 0 ∨ 32768 ≤ ahead
    ∃ g w u t : State, exec (.receptionEnd p bytes) s = .next t ∧ t = u.settle ∧
      v.Renewed g (decide (s.base.unlocked = .runLocal)) (v.Spans v.timer.position) ∧
      ((∀ c r, s.gen.commit = some c → c.target = .atRound r → ¬ reached r) → w = g) ∧
      (∀ c r, s.gen.commit = some c → c.target = .atRound r → reached r →
        w = State.completeOp { g with gen := { g.gen with commit := none } } c.requester c.tag c.ingress 0x0A c.slot
          .missedRound (some (.round r))) ∧
      w.SyncCopied u p ⟨parseSync bytes, rx.start⟩ ∧
      t.gen = { s.gen with commit := t.gen.commit } ∧ t.straps = s.straps ∧
      (s.gen.commit = none → t.gen.commit = none ∧ t.store.mem = s.store.mem ∧
        t.mgmt = { s.mgmt with notices := t.mgmt.notices }) ∧
      (∀ i, (t.stream i).stamp = (s.stream i).stamp ∧ (t.stream i).budgetUsed = (s.stream i).budgetUsed ∧
        (t.stream i).expectation = (s.stream i).expectation) ∧
      t.timer = v.timer

/-- A reception that passes the checks, other than a SYNC, is stored, counted and classified with the stamp of its
start (R3, R5, R6). -/
def Obligations.ArrivalReachesTheClassifier : Prop :=
  ∀ (s : State) (p : Port) (rx : Reception) (k : Byte) (n : Nat) (bytes : List Byte),
    s.power = .running → (s.port p).rx = some rx → rx.kind = some k → k ≠ 0x02 → rx.slot = some n → n < 384 →
    ingressCheck bytes k = .arrival →
    exec (.receptionEnd p bytes) s = .next
      (State.classify
        ((s.modPort p fun u => { u with rx := none, counters := u.counters.incReceived }).writeSlot n bytes)
        { port := p, slot := n, stamp := ⟨rx.stamp, s.timer.cycleCount⟩, dst := byteAt bytes 0, src := byteAt bytes 1
          kind := k, sequence := byteAt bytes 3, tag := BitVec.ofNat 16 (numAt bytes 4 2)
          length := bytes.length }).settle

/-- Interception comes first (R40, R41); then the entry of lowest index that matches is selected (R38, R43). -/
def Obligations.ClassificationInterceptsThenMatches : Prop :=
  ∀ (s : State) (a : Arrival),
    let own := (1 ≤ s.base.node.toNat ∧ s.base.node.toNat ≤ 253 ∧ a.dst = s.base.node) ∨
      (s.base.node = 0 ∧ a.dst = 0 ∧ a.port = .L)
    let accepts := fun e : StreamEntry => e.valid = true ∧ e.ports.getLsbD (portBit a.port) = true ∧
      ((a.kind = 1 ∧ e.kinds.getLsbD 0 = true) ∨ (a.kind = 3 ∧ e.kinds.getLsbD 1 = true) ∨
        (a.kind = 4 ∧ e.kinds.getLsbD 2 = true) ∨ (a.kind = 5 ∧ e.kinds.getLsbD 3 = true)) ∧
      (e.srcAny = true ∨ e.src = a.src) ∧ (e.dstAny = true ∨ e.dst = a.dst) ∧
      e.tagLow.toNat ≤ a.tag.toNat ∧ a.tag.toNat ≤ e.tagHigh.toNat
    (own → a.kind = 0x03 → s.classify a = s.intake a.port a.slot a.length) ∧
    (own → a.kind ≠ 0x03 → s.classify a = (s.countPort a.port PortCounters.incUnmatched).releaseSlot a.slot) ∧
    (∀ i e, ¬ own → s.gen.active.streams.length = 256 → s.gen.active.streams[i]? = some e → accepts e →
      (∀ j e', j < i → s.gen.active.streams[j]? = some e' → ¬ accepts e') →
      s.classify a = s.classifyMatched (BitVec.ofNat 8 i) e a) ∧
    (¬ own → (∀ e ∈ s.gen.active.streams, ¬ accepts e) → s.classify a = s.classifyUnmatched a)

/-- The intake of an intercepted REQUEST (R137, R138): a duplicate, a repeat, a full queue, or a place in the queue.
-/
def Obligations.IntakeDecides : Prop :=
  ∀ (s : State) (p : Port) (slot length : Nat) (req : Request) (r : Reply),
    req = s.requestIn p slot length → slot < 384 →
    r = s.plainReply req .duplicatePending 0 [] →
    let same := fun (q : Byte) (t : W16) => q = req.requester ∧ t = req.tag
    let waits := (∃ q ∈ s.mgmt.requests, same q.requester q.tag) ∨
      (∃ q h, s.mgmt.engine = .executing q h ∧ same q.requester q.tag) ∨
      (∃ x o, s.mgmt.portControl.get x = some o ∧ same o.requester o.tag) ∨
      (∃ o, s.gen.commit = some o ∧ same o.requester o.tag)
    (waits → s.ReplyQueued (s.intake p slot length) p slot r s.mgmt) ∧
    (∀ a, ¬ waits → s.answerOf req.requester req.tag = some a →
      s.ReplyQueued (s.intake p slot length) p slot
        { r with kind := a.kind, status := a.status, isRepeat := true } s.mgmt) ∧
    (¬ waits → (∀ a ∈ s.mgmt.answered, ¬ same a.requester a.tag) → 8 ≤ s.mgmt.requests.length →
      s.ReplyQueued (s.intake p slot length) p slot { r with status := .queueFull } s.mgmt) ∧
    (¬ waits → (∀ a ∈ s.mgmt.answered, ¬ same a.requester a.tag) → s.mgmt.requests.length < 8 →
      s.intake p slot length = { s with mgmt := { s.mgmt with requests := s.mgmt.requests ++ [req] } })

/-- The sequence monitor (R45) and the byte budget (R47) of a matched arrival: the judgement, the counters, the
expectation, the budget used, and whether and in which class the frame goes on. -/
def Obligations.MonitorAndBudgetJudge : Prop :=
  ∀ (s : State) (i : Byte) (e : StreamEntry) (a : Arrival) (st : StreamState) (x : Byte),
    s.streams[i.toNat]? = some st →
    let put := fun st : StreamState => { s with streams := s.streams.set i.toNat st }
    (e.monitor = .off → s.monitorStep i e a = (s, true)) ∧
    (e.monitor ≠ .off → (st.expectation = none ∨ st.expectation = some a.sequence) → s.monitorStep i e a =
      (put { st with expectation := some (a.sequence + 1) }, true)) ∧
    (e.monitor ≠ .off → st.expectation = some x → 1 ≤ (x - a.sequence).toNat → (x - a.sequence).toNat ≤ 16 →
      s.monitorStep i e a =
        (put { st with counters := { st.counters with duplicates := st.counters.duplicates + 1 } },
          decide (e.monitor = .count))) ∧
    (e.monitor ≠ .off → st.expectation = some x → 1 ≤ (a.sequence - x).toNat → (a.sequence - x).toNat ≤ 239 →
      s.monitorStep i e a =
        (put { st with
          expectation := some (a.sequence + 1)
          counters := { st.counters with
            gaps := st.counters.gaps + BitVec.ofNat 32 (a.sequence - x).toNat } }, true)) ∧
    (e.budget = 0 → s.budgetStep i e a = (s, some e.cls)) ∧
    (e.budget ≠ 0 → st.budgetUsed + a.length ≤ e.budget.toNat → s.budgetStep i e a =
      (put { st with budgetUsed := st.budgetUsed + a.length }, some e.cls)) ∧
    (e.budget ≠ 0 → e.budget.toNat < st.budgetUsed + a.length → s.budgetStep i e a =
      (put { st with counters := { st.counters with overBudget := st.counters.overBudget + 1 } },
        if e.overBudget = .demote then some 3 else none))

/-- A matched arrival (R43 to R47): it is counted and stamped, dropped when oversize or judged a duplicate under
DISCARD, and goes on by its action. -/
def Obligations.MatchedArrivalFollowsItsAction : Prop :=
  ∀ (s : State) (i : Byte) (e : StreamEntry) (a : Arrival),
    let s2 := { s with streams := s.streams.modify i.toNat fun st => { st with
      counters := { st.counters with matched := st.counters.matched + 1 }
      stamp := if e.capture then some a.stamp.start else st.stamp } }
    let drop := fun s : State => State.releaseSlot { s with
      streams := s.streams.modify i.toNat fun st => { st with
        counters := { st.counters with dropped := st.counters.dropped + 1 } } } a.slot
    (e.maxLength.toNat < a.length → s.classifyMatched i e a = drop s2) ∧
    (a.length ≤ e.maxLength.toNat →
      (∀ s3, s2.monitorStep i e a = (s3, false) → s.classifyMatched i e a = drop s3) ∧
      (∀ s3, s2.monitorStep i e a = (s3, true) → e.action = .drop → s.classifyMatched i e a = drop s3) ∧
      (∀ s3, s2.monitorStep i e a = (s3, true) → e.action = .forward →
        (∀ s4, s3.budgetStep i e a = (s4, none) → s.classifyMatched i e a = drop s4) ∧
        (∀ s4 c, s3.budgetStep i e a = (s4, some c) → s.classifyMatched i e a = s4.forwardMatched i e c a)) ∧
      (∀ s3, s2.monitorStep i e a = (s3, true) → e.action = .retain →
        (s.retention.records.length < 32 →
          s.classifyMatched i e a =
            let kept := { s3 with retention := { s.retention with records := s.retention.records ++
              [{ slot := a.slot, reason := .captured, stream := i, ingress := a.port, egress := none, cls := e.cls
                 maxWait := if e.maxWait = 0xFF then none else some e.maxWait.toNat
                 stamp := a.stamp.start, length := a.length }] } }
            if s.retention.records.length + 1 = s.base.highMark.toNat then kept.noticeEvent .retentionHigh else kept) ∧
        (32 ≤ s.retention.records.length →
          s.classifyMatched i e a =
            drop { s3 with retention := { s.retention with overflow := s.retention.overflow + 1 } })))

/-- The one copy of a frame whose route gives one port is queued, retained or dropped (R48, R49, R50, R67). -/
def Obligations.OneCopyIsQueuedRetainedOrDropped : Prop :=
  ∀ (s : State) (i : Byte) (e : StreamEntry) (c : Cls) (a : Arrival) (p : Port), s.routePorts e.route a = [p] →
    let drop := fun s : State => State.releaseSlot { s with
      streams := s.streams.modify i.toNat fun st => { st with
        counters := { st.counters with dropped := st.counters.dropped + 1 } } } a.slot
    let full := ((s.base.limits.get p).get c).toNat ≤ (s.egress p c).length ∨ 128 ≤ (s.egress p c).length ∨
      s.descsFree = 0
    (∀ x, s.routePorts (.port x) a = [x]) ∧
    (p = a.port → s.forwardMatched i e c a = drop s) ∧
    (p ≠ a.port → (s.port p).state = .up → ¬ full → s.forwardMatched i e c a =
      { s with
        queues := s.queues.set p ((s.queues.get p).set c (s.egress p c ++
          [{ slot := a.slot, origin := .stream i, cls := c, late := e.late
             maxWait := if e.maxWait = 0xFF then none else some e.maxWait.toNat
             stamp := some a.stamp, ingress := some a.port, length := a.length }]))
        opportunities := s.opportunities.set p true
        store := { s.store with count := s.store.count.set a.slot 1 } }) ∧
    (p ≠ a.port → (s.port p).state = .up → full → s.forwardMatched i e c a = drop s) ∧
    (p ≠ a.port → (s.port p).state ≠ .up → e.late ≠ .retain → s.forwardMatched i e c a = drop s) ∧
    (p ≠ a.port → (s.port p).state ≠ .up → e.late = .retain → 32 ≤ s.retention.records.length →
      s.forwardMatched i e c a =
        drop { s with retention := { s.retention with overflow := s.retention.overflow + 1 } }) ∧
    (p ≠ a.port → (s.port p).state ≠ .up → e.late = .retain → s.retention.records.length < 32 →
      s.forwardMatched i e c a =
        let kept := { s with
          retention := { s.retention with records := s.retention.records ++
            [{ slot := a.slot, reason := .portDown, stream := i, ingress := a.port, egress := some p, cls := c
               maxWait := if e.maxWait = 0xFF then none else some e.maxWait.toNat
               stamp := a.stamp.start, length := a.length }] }
          store := { s.store with count := s.store.count.set a.slot 1 } }
        if s.retention.records.length + 1 = s.base.highMark.toNat then kept.noticeEvent .retentionHigh else kept)

/-- A frame whose route gives two ports, by BOTH OTHERS or by DEFAULT to destination 255, makes one copy for each, in
port order, each queued, retained or dropped on its own, and the slot's count becomes the number of holders (R48, R49,
R50, R52, R67). -/
def Obligations.BothOthersMakesTwoCopiesInPortOrder : Prop :=
  ∀ (s : State) (i : Byte) (e : StreamEntry) (c : Cls) (a : Arrival) (p q : Port),
    s.routePorts e.route a = [p, q] →
    let dropped := fun s : State => { s with streams := s.streams.modify i.toNat fun st => { st with
      counters := { st.counters with dropped := st.counters.dropped + 1 } } }
    let copy := fun (s : State) (p : Port) =>
      if (s.port p).state = .up then
        if ((s.base.limits.get p).get c).toNat ≤ (s.egress p c).length ∨ 128 ≤ (s.egress p c).length ∨
            s.descsFree = 0 then (dropped s, 0)
        else (s.append p c (streamDesc i e c a), 1)
      else if e.late = .retain then
        if s.retention.records.length < 32 then
          (s.retain { slot := a.slot, reason := .portDown, stream := i, ingress := a.port, egress := some p, cls := c
                      maxWait := maxWaitOf e.maxWait, stamp := a.stamp.start, length := a.length }, 1)
        else (dropped { s with retention := { s.retention with overflow := s.retention.overflow + 1 } }, 0)
      else (dropped s, 0)
    s.routePorts .bothOthers a = (match a.port with | .A => [.B, .L] | .B => [.A, .L] | .L => [.A, .B]) ∧
    s.forwardMatched i e c a =
      let x := copy s p
      let y := copy x.1 q
      if x.2 + y.2 = 0 then y.1.releaseSlot a.slot
      else { y.1 with store := { y.1.store with count := y.1.store.count.set a.slot (x.2 + y.2) } }

/-- An unmatched arrival is counted at its port and dropped, or forwarded in class 3 by the five cases of the default
route (R51, R52), which gives the ports of a matched frame with route DEFAULT too. -/
def Obligations.UnmatchedArrivalTakesTheDefaultRoute : Prop :=
  ∀ (s : State) (a : Arrival) (p : Port),
    let counted := s.countPort a.port PortCounters.incUnmatched
    let full := ((s.base.limits.get p).get 3).toNat ≤ (s.egress p 3).length ∨ 128 ≤ (s.egress p 3).length ∨
      s.descsFree = 0
    let listed := ∃ k, k < s.base.stationCount.toNat ∧ s.base.stations.toList[k]? = some a.dst
    s.routePorts .default a = s.defaultRoute a ∧
    (listed → s.defaultRoute a = [.L]) ∧
    (¬ listed → a.dst = 255 → s.defaultRoute a = match a.port with | .A => [.B, .L] | .B => [.A, .L] | .L => [.A, .B]) ∧
    (¬ listed → a.dst ≠ 255 → s.defaultRoute a =
      match a.port with
      | .A => [.B]
      | .B => [.A]
      | .L => [match s.base.uplink with | .A => .A | .B => .B]) ∧
    (s.base.unmatched = .drop → s.classifyUnmatched a = counted.releaseSlot a.slot) ∧
    (s.base.unmatched = .forward → s.defaultRoute a = [p] → p = a.port ∨ (s.port p).state ≠ .up ∨ full →
      s.classifyUnmatched a = counted.releaseSlot a.slot) ∧
    (s.base.unmatched = .forward → s.defaultRoute a = [p] → p ≠ a.port → (s.port p).state = .up → ¬ full →
      s.classifyUnmatched a = { counted with
        queues := s.queues.set p ((s.queues.get p).set 3 (s.egress p 3 ++
          [{ slot := a.slot, origin := .unmatched, cls := 3, late := .drop, maxWait := none
             stamp := some a.stamp, ingress := some a.port, length := a.length }]))
        opportunities := s.opportunities.set p true
        store := { s.store with count := s.store.count.set a.slot 1 } }) ∧
    (∀ q, s.base.unmatched = .forward → s.defaultRoute a = [p, q] → a.port ∉ [p, q] →
      s.classifyUnmatched a =
        let copy := fun (s : State) (p : Port) =>
          if (s.port p).state = .up ∧ (s.egress p 3).length < ((s.base.limits.get p).get 3).toNat ∧
              (s.egress p 3).length < 128 ∧ 1 ≤ s.descsFree then (s.append p 3 (unmatchedDesc a), 1)
          else (s, 0)
        let x := copy counted p
        let y := copy x.1 q
        if x.2 + y.2 = 0 then y.1.releaseSlot a.slot
        else { y.1 with store := { y.1.store with count := y.1.store.count.set a.slot (x.2 + y.2) } })

/-- A link check by the port's state (R9), where no ENABLE waits. That a check before 12,500 quanta have passed since
the last one leaves the state as it is (notes/assumptions/5.md), and that a check taken late counts from when it was
due (notes/assumptions/18.md), are the model's choices. -/
def Obligations.LinkCheckCountsAndBringsUp : Prop :=
  ∀ (s : State) (p : Port) (good : Bool), s.power = .running →
    ((s.port p).lastCheck + 12500 ≤ s.refCount →
      let checked := fun u : PortUnit => { u with lastCheck := u.lastCheck + 12500, signalGood := good }
      let rising := (s.port p).state = .qualifying ∨ (s.port p).state = .down
      ((s.port p).state = .disabled ∨ (s.port p).state = .disabling →
        exec (.linkCheck p good) s = .next (s.modPort p checked).settle) ∧
      ((s.port p).state = .up → good = true →
        exec (.linkCheck p good) s = .next (s.modPort p fun u => { checked u with bad := 0 }).settle) ∧
      ((s.port p).state = .up → good = false → (s.port p).bad ≤ 1 →
        exec (.linkCheck p good) s = .next (s.modPort p fun u => { checked u with bad := u.bad + 1 }).settle) ∧
      (rising → good = false → (s.port p).qualCount = none →
        exec (.linkCheck p good) s = .next (s.modPort p fun u => { checked u with good := 0 }).settle) ∧
      (rising → good = true → (s.port p).good ≤ 1 → (s.port p).qualCount = none →
        exec (.linkCheck p good) s = .next (s.modPort p fun u => { checked u with good := u.good + 1 }).settle) ∧
      (rising → good = true → 2 ≤ (s.port p).good → (s.port p).qualCount = none →
        exec (.linkCheck p good) s = .next
          (((s.modPort p fun u => { checked u with good := 0, bad := 0, state := .up }).noticeEvent
            .portState).raise p).settle)) ∧
    (s.refCount < (s.port p).lastCheck + 12500 → exec (.linkCheck p good) s = .next s)

/-- The link checks of a port whose ENABLE waits (R9, R14, R160). That the 64th check leaves the good-check count as
the check makes it is the model's reading (notes/assumptions/15.md). -/
def Obligations.WaitingEnableEndsAtUpOrTheSixtyFourthCheck : Prop :=
  ∀ (s : State) (p : Port) (good : Bool) (n : Nat) (o : PortControl), s.power = .running →
    (s.port p).lastCheck + 12500 ≤ s.refCount → (s.port p).state = .qualifying → (s.port p).qualCount = some n →
    s.mgmt.portControl.get p = some o →
    let checked := fun u : PortUnit => { u with lastCheck := u.lastCheck + 12500, signalGood := good }
    let counted := if good = true then (s.port p).good + 1 else 0
    (3 ≤ counted →
      exec (.linkCheck p good) s = .next
        (((((s.modPort p fun u => { checked u with good := 0, bad := 0, qualCount := none, state := .up }).noticeEvent
          .portState).raise p).setPortControl p none).completeOp o.requester o.tag o.ingress 0x0C o.slot .done
            none).settle) ∧
    (counted < 3 → n + 1 < 64 →
      exec (.linkCheck p good) s = .next
        (s.modPort p fun u => { checked u with good := counted, qualCount := some (n + 1) }).settle) ∧
    (counted < 3 → n + 1 = 64 →
      exec (.linkCheck p good) s = .next
        ((((s.modPort p fun u => { checked u with good := counted, qualCount := none, state := .down }).noticeEvent
          .portState).setPortControl p none).completeOp o.requester o.tag o.ingress 0x0C o.slot .linkAbsent
            (some (.port p))).settle)

/-- The third bad link check in a row takes an UP port DOWN (R7, R10, R11, R12): the reception and the transmission
end, the queues and the SYNC holder are emptied, and the copies, the one in flight first and then class by class,
become records while they are under RETAIN and retention has room; of the others the slots are released in order, and
the dropped and management frames lost counters rise (R63, R72). -/
def Obligations.PortLossDisposesInOrder : Prop :=
  ∀ (s : State) (p : Port), s.power = .running → (s.port p).lastCheck + 12500 ≤ s.refCount →
    (s.port p).state = .up → 2 ≤ (s.port p).bad →
    let flying := match (s.port p).tx with | some ⟨.desc d, _, _, _⟩ => [(d, Reason.aborted)] | _ => []
    let copies := flying ++
      (s.egress p 0 ++ s.egress p 1 ++ s.egress p 2 ++ s.egress p 3).map fun d => (d, Reason.portDown)
    let ended := State.releaseSlot? { s with
      queues := s.queues.set p ⟨[], [], [], []⟩
      ports := s.ports.set p { s.port p with
        state := .down, good := 0, bad := 0, rx := none, tx := none, holder := none
        lastCheck := (s.port p).lastCheck + 12500, signalGood := false
        counters := { (s.port p).counters with
          aborted := (s.port p).counters.aborted + (if (s.port p).tx.isSome then 1 else 0) } } }
      ((s.port p).rx.bind Reception.slot)
    let lost := copies.countP fun x => decide (x.1.origin = .management)
    let kept := copies.filterMap fun x =>
      match x.1.origin with
      | .stream i => if x.1.late = .retain then some (x.1.toRecord i x.2 p) else none
      | _ => none
    ∃ v u : State, exec (.linkCheck p false) s = .next u.settle ∧
      ended.Disposed v p copies ∧ u = v.noticeEvent .portState ∧
      u.port p = { s.port p with
        state := .down, good := 0, bad := 0, rx := none, tx := none, holder := none
        lastCheck := (s.port p).lastCheck + 12500, signalGood := false
        counters := { (s.port p).counters with
          aborted := (s.port p).counters.aborted + (if (s.port p).tx.isSome then 1 else 0)
          mgmtLost := (s.port p).counters.mgmtLost + BitVec.ofNat 32 lost } } ∧
      (∀ c, u.egress p c = []) ∧
      u.retention.records = s.retention.records ++ kept.take (32 - s.retention.records.length) ∧
      u.retention.overflow = s.retention.overflow + BitVec.ofNat 32 (kept.length - (32 - s.retention.records.length)) ∧
      (∀ q, q ≠ p → u.port q = s.port q ∧ ∀ c, u.egress q c = s.egress q c) ∧
      (∀ j, (u.stream j).stamp = (s.stream j).stamp ∧ (u.stream j).budgetUsed = (s.stream j).budgetUsed ∧
        (u.stream j).expectation = (s.stream j).expectation) ∧
      u.timer = s.timer ∧ u.gen = s.gen ∧ u.gates = s.gates ∧ u.opportunities = s.opportunities ∧
      u.store.mem = s.store.mem ∧ u.refCount = s.refCount ∧ u.straps = s.straps ∧
      u.mgmt = { s.mgmt with notices := u.mgmt.notices }

/-- The end of a transmission (R102), and of a disable that waits for it (R13): the queues are disposed of in class
order (R12), and the disable is answered (R143). That TRANSMISSION_END before the occupation has passed leaves the
state as it is, is the model's choice (notes/assumptions/5.md). -/
def Obligations.TransmissionEndCountsAndReleases : Prop :=
  ∀ (s : State) (p : Port) (t : Transmission), s.power = .running → (s.port p).tx = some t →
    let sent := s.modPort p fun u => { u with tx := none, counters := { u.counters with sent := u.counters.sent + 1 } }
    (s.refCount < t.start + t.occupation → exec (.transmissionEnd p) s = .next s) ∧
    (t.start + t.occupation ≤ s.refCount → (s.port p).state = .up →
      (∀ f, t.sending = .sync f → exec (.transmissionEnd p) s = .next (sent.raise p).settle) ∧
      (∀ d i, t.sending = .desc d → d.origin = .stream i →
        exec (.transmissionEnd p) s = .next ((State.releaseSlot { sent with
          streams := s.streams.modify i.toNat fun st => { st with
            counters := { st.counters with forwarded := st.counters.forwarded + 1 } } } d.slot).raise p).settle) ∧
      (∀ d, t.sending = .desc d → (d.origin = .unmatched ∨ d.origin = .management) →
        exec (.transmissionEnd p) s = .next ((sent.releaseSlot d.slot).raise p).settle)) ∧
    (t.start + t.occupation ≤ s.refCount → (s.port p).state = .disabling →
      let queued := (s.egress p 0 ++ s.egress p 1 ++ s.egress p 2 ++ s.egress p 3).map fun d => (d, Reason.portDown)
      let flying := match t.sending with | .desc d => some d | .sync _ => none
      let ended := State.releaseSlot? { s with
        queues := s.queues.set p ⟨[], [], [], []⟩
        streams := match flying.bind Desc.stream? with
          | some i => s.streams.modify i.toNat fun st => { st with
              counters := { st.counters with forwarded := st.counters.forwarded + 1 } }
          | none => s.streams
        ports := s.ports.set p { s.port p with
          state := .disabled, good := 0, bad := 0, tx := none, holder := none
          counters := { (s.port p).counters with sent := (s.port p).counters.sent + 1 } } } (flying.map Desc.slot)
      ∃ v u : State, exec (.transmissionEnd p) s = .next u.settle ∧ ended.Disposed v p queued ∧
        (s.mgmt.portControl.get p = none → u = v.noticeEvent .portState) ∧
        (∀ o, s.mgmt.portControl.get p = some o → u = ((v.noticeEvent .portState).setPortControl p none).completeOp
          o.requester o.tag o.ingress 0x0C o.slot .done none) ∧
        (u.port p).state = .disabled ∧
        (u.port p).good = 0 ∧ (u.port p).bad = 0 ∧ (u.port p).tx = none ∧ (u.port p).holder = none ∧
        (u.port p).counters.sent = (s.port p).counters.sent + 1 ∧ u.mgmt.portControl.get p = none ∧
        (∀ c, u.egress p c = []))

/-- The end of a command takes the start opportunities it raised, each by the arbiter of its port (R34, R86, R98 to
R101, R106). That they are taken at the command's end is the model's reading (notes/assumptions/8.md). -/
def Obligations.OpportunitiesStartWhatTheArbiterChooses : Prop :=
  ∀ (s : State) (p : Port),
    let passes := fun c => ∃ d rest, s.egress p c = d :: rest ∧ (s.gates.get p).gate.get c = true ∧
      ∀ b, (s.gates.get p).bound.get c = some b → s.positionNow + (d.length + 12) * 10 ≤ b
    let mayPick := fun c : Cls =>
      match s.mgmt.drain with
      | none => (s.port p).holder = none
      | some dr => dr.queue = some (p, c) ∧
          ∃ d ∈ s.egress p c, d.origin = .management ∧ d.slot = dr.slot
    let kept := s.settle.port p = s.port p ∧ ∀ c, s.settle.egress p c = s.egress p c
    s.settle = { s with ports := s.settle.ports, queues := s.settle.queues, opportunities := ⟨false, false, false⟩ } ∧
    (s.opportunities.get p = false ∨ (s.port p).state ≠ .up ∨ (s.port p).tx ≠ none → kept) ∧
    (s.opportunities.get p = true → (s.port p).state = .up → (s.port p).tx = none →
      (∀ h, s.mgmt.drain = none → (s.port p).holder = some h →
        let f := { h.frame with
          correction := BitVec.ofNat 32 (min (h.frame.correction.toNat + (s.refCount - h.arrival)) 4294967295) }
        s.settle.port p = { s.port p with holder := none, tx := some ⟨.sync f, s.refCount, 440, syncBytes f⟩ } ∧
        ∀ c, s.settle.egress p c = s.egress p c) ∧
      (∀ c d rest, mayPick c → passes c → (s.mgmt.drain = none → ∀ k, k < c → ¬ passes k) →
        s.egress p c = d :: rest →
        s.settle.port p = { s.port p with
          tx := some ⟨.desc d, s.refCount, (d.length + 12) * 10, recheck (s.slotBytes d.slot d.length)⟩ } ∧
        ∀ k, s.settle.egress p k = if k = c then rest else s.egress p k) ∧
      ((∀ c, ¬ (mayPick c ∧ passes c)) → (s.mgmt.drain = none → (s.port p).holder = none) → kept))

/-- A cycle end at which generation control does nothing (R20, R21, R30, R55): the timer, then the gates, the budgets,
and, unless the engine is STOPPED, one try of each notice kind in the order SYNC_STATE, PORT_STATE, GENERATION,
RETENTION_HIGH (R147); no byte of memory changes outside the slots the notices take. The order of the gates, the budgets
and the notices at one cycle end is the model's reading (notes/assumptions/16.md): R147 allows the notice of an event at
this cycle end or the next. That CYCLE_END before the position reaches the effective length leaves the state as it is, is
the model's choice (notes/assumptions/5.md). -/
def Obligations.CycleEndAdvancesTheTimer : Prop :=
  ∀ (s : State) (index : Nat) (acc : Int), s.power = .running →
    index = (if s.base.cyclesPerRound.toNat ≤ s.timer.index + 1 then 0 else s.timer.index + 1) →
    acc = s.timer.residue + s.timer.trim →
    let missed := min 65535 (s.timer.missed + 1)
    (s.timer.position < s.timer.effLength → exec .cycleEnd s = .next s) ∧
    (s.timer.effLength ≤ s.timer.position →
      (s.gen.commit = none ∨ index ≠ 0 ∨
        ∃ c r, s.gen.commit = some c ∧ c.target = .atRound r ∧ r ≠ s.timer.round + 1) →
      let m := s.retimed ((s.timer.counted s.base).lengthFixed s.base)
      s.CycleEndsAs m ∧
      ∃ t, exec .cycleEnd s = .next t ∧ t.gen = s.gen ∧ t.straps = s.straps ∧
        t.mgmt = { s.mgmt with notices := t.mgmt.notices, noticeSeq := t.mgmt.noticeSeq } ∧
        (s.base.managerPresent = false ∨ s.mgmt.engine = .stopped → t.store.mem = s.store.mem) ∧
        (∀ a, (∀ n ∈ (State.gatesCycleEnd s.base.unlocked m).store.free.take 4, a < 512 * n ∨ 512 * n + 32 ≤ a) →
          readByte t.store.mem a = readByte s.store.mem a) ∧
        (∀ p, (t.port p).state = (s.port p).state ∧ (t.port p).rx = (s.port p).rx) ∧
        t.timer = {
          position := 0
          index := index
          round := if index = 0 then s.timer.round + 1 else s.timer.round
          cycleCount := s.timer.cycleCount + 1
          trim := s.timer.trim
          residue := acc - acc.tdiv 256 * 256
          effLength := ((s.base.cycleLength.toNat : Int) + acc.tdiv 256 + s.timer.slew.getD 0).toNat
          slew := none
          used := false
          lastErr := s.timer.lastErr
          sync :=
            if s.timer.used then s.timer.sync
            else match s.timer.sync with
              | .free => .free
              | .acquiring => if 16 ≤ missed then .free else .acquiring
              | .locked => if 4 ≤ missed then .holdover else .locked
              | .holdover => if s.base.holdoverLimit.toNat ≤ missed then .free else .holdover
          good :=
            if s.timer.used = false ∧ s.timer.sync = .acquiring ∧ 16 ≤ missed then 0 else s.timer.good
          missed :=
            if s.timer.used then s.timer.missed
            else if s.timer.sync = .locked ∧ 4 ≤ missed then 0 else missed } ∧
        (∀ i, i < t.streams.length → (t.streams[i]?.map StreamState.budgetUsed) = some 0) ∧
        (∀ i : Byte, (t.stream i).stamp = (s.stream i).stamp ∧ (t.stream i).expectation = (s.stream i).expectation))

/-- What a pending commit does at a round start (R35, R120, R126, R127, R134): when it is due it swaps or fails
NOT_SYNCED, and is answered by R143 in either case. `x` is the part after steps 1 to 5 of R20. That the answer and the
GENERATION event come before the gates, the budgets and the notices of the same cycle end is the model's reading
(notes/assumptions/16.md): R147 allows the notice at this cycle end or the next. -/
def Obligations.DueCommitSwapsOrFails : Prop :=
  ∀ (s : State) (c : Commit), s.power = .running → s.timer.effLength ≤ s.timer.position →
    s.base.cyclesPerRound.toNat ≤ s.timer.index + 1 → s.gen.commit = some c →
    let x := s.retimed (s.timer.counted s.base)
    let new := s.gen.shadow.base
    let leaves := new.timingPort ≠ s.base.timingPort ∧ x.timer.sync = .locked
    let swapped : State := { x with
      gen := { active := s.gen.shadow, shadow := s.gen.active, number := s.gen.number + 1, commit := none }
      streams := s.streams.map fun (st : StreamState) => { st with expectation := none } }
    let begun := swapped.retimed (Timer.lengthFixed new { x.timer with
      slew := if new.cycleLength = s.base.cycleLength then s.timer.slew else none
      sync := if leaves then .holdover else x.timer.sync
      missed := if leaves then 0 else x.timer.missed })
    let failed : State := { x with gen := { s.gen with commit := none }, timer := x.timer.lengthFixed s.base }
    (c.target = .nextRound ∨ (c.target = .atRound (s.timer.round + 1) ∧
        (x.timer.sync = .locked ∨ x.timer.sync = .holdover)) →
      s.CycleEndsAs (State.completeOp (begun.noticeEvent .generation) c.requester c.tag c.ingress 0x0A c.slot .done none) ∧
      ∃ t, exec .cycleEnd s = .next t ∧
        t.gen = { active := s.gen.shadow, shadow := s.gen.active, number := s.gen.number + 1, commit := none } ∧
        t.timer.round = s.timer.round + 1 ∧ t.timer.index = 0 ∧ t.timer.position = 0 ∧
        t.timer.effLength = ((new.cycleLength.toNat : Int) + (s.timer.residue + s.timer.trim).tdiv 256 +
          (if new.cycleLength = s.base.cycleLength then s.timer.slew.getD 0 else 0)).toNat ∧
        t.timer.sync = (if leaves then .holdover else x.timer.sync) ∧
        t.timer.missed = (if leaves then 0 else x.timer.missed) ∧
        ∀ i : Byte, (t.stream i).expectation = none) ∧
    (c.target = .atRound (s.timer.round + 1) → (x.timer.sync = .free ∨ x.timer.sync = .acquiring) →
      s.CycleEndsAs (failed.completeOp c.requester c.tag c.ingress 0x0A c.slot .notSynced
        (some (.round (s.timer.round + 1)))) ∧
      ∃ t, exec .cycleEnd s = .next t ∧ t.gen = { s.gen with commit := none } ∧
        (∀ i : Byte, (t.stream i).expectation = (s.stream i).expectation) ∧
        t.mgmt.conditions = (if c.slot = none then
          (x.fileCondition c.requester c.tag 0x0A .notSynced (.round (s.timer.round + 1))).mgmt.conditions
          else s.mgmt.conditions)) ∧
    (∀ r, c.target = .atRound r → r ≠ s.timer.round + 1 → ∃ t, exec .cycleEnd s = .next t ∧ t.gen = s.gen)

/-- The gate controller at a cycle end (R77, R78, R82, R83, R90): the windows of the finishing cycle close with
lateness checks, in port and class order, when the part is running by the old bank's policy and the sync state after
the accounting, and are withdrawn without them when it is held; and the windows and gates that a cycle end leaves are
those of the new cycle. -/
def Obligations.CycleEndOpensTheNewCyclesWindows : Prop :=
  (∀ (old : UnlockedPolicy) (b : State), b.Renewed (State.gatesCycleEnd old b)
    (decide (old = .runLocal ∨ b.timer.sync = .locked ∨ b.timer.sync = .holdover)) fun w => w.1.openOffset = 0) ∧
  ∀ (s : State) (p : Port), s.power = .running → s.timer.effLength ≤ s.timer.position →
    ∃ t, exec .cycleEnd s = .next t ∧
      (t.gates.get p).windows =
        (if t.base.unlocked = .runLocal ∨ t.timer.sync = .locked ∨ t.timer.sync = .holdover then
          (t.gen.active.windows.zipIdx.filter fun w =>
            w.1.valid && decide (w.1.port = p) && decide (w.1.openOffset = 0) &&
              (decide (w.1.indexMatch = 0xFF) || decide (w.1.indexMatch.toNat = t.timer.index)) &&
              decide (t.timer.round.toNat % w.1.modulus.toNat = w.1.residue.toNat)).map fun w =>
            { index := w.2, classes := w.1.classes, guarded := w.1.guarded, exclusive := w.1.exclusive
              close := if w.1.closeOffset.toNat < t.timer.effLength then .at w.1.closeOffset.toNat else .cycleEnd }
        else []) ∧
      ∀ c, (t.gates.get p).gate.get c = t.gateOpen p c ∧ (t.gates.get p).bound.get c = t.guardBound p c

/-- A window event closes, checks lateness in class order, opens, and evaluates (R77, R78, R79, R82, R83, R88). The port has
a new start opportunity exactly when a lateness check removes the head of a queue (R97), a gate goes from closed to
open, or an open gate's guard bound is raised or removed (R82). That WINDOW_EVENT with nothing to close or open leaves the state as it is, is the model's choice (notes/assumptions/5.md).
-/
def Obligations.WindowEventClosesThenOpens : Prop :=
  ∀ (s : State) (p : Port), s.power = .running → 0 < s.timer.position → s.timer.position < s.timer.effLength →
    let closing := fun o : OpenWindow => o.close = .at s.timer.position
    let runs := s.base.unlocked = .runLocal ∨ s.timer.sync = .locked ∨ s.timer.sync = .holdover
    let opens := fun w : WindowEntry × Nat => w.1.valid = true ∧ w.1.port = p ∧
      w.1.activeIn s.timer.round s.timer.index = true ∧ w.1.openOffset.toNat = s.timer.position ∧
      ¬ ∃ o ∈ (s.gates.get p).windows, o.index = w.2 ∧ ¬ closing o
    ((∀ o ∈ (s.gates.get p).windows, ¬ closing o) → (runs → ∀ w ∈ s.gen.active.windows.zipIdx, ¬ opens w) →
      exec (.windowEvent p) s = .next s) ∧
    ((∃ o ∈ (s.gates.get p).windows, closing o) ∨ (runs ∧ ∃ w ∈ s.gen.active.windows.zipIdx, opens w) →
      let named := ([0, 1, 2, 3] : List Cls).filter fun c =>
        (s.gates.get p).windows.any fun o => decide (o.close = .at s.timer.position) && o.classes.getLsbD c.val
      let left : State := { s with gates := s.gates.set p { s.gates.get p with
        windows := (s.gates.get p).windows.filter fun o => !decide (o.close = .at s.timer.position) } }
      ∃ u : State, exec (.windowEvent p) s = .next u.settle ∧
        u = { (named.foldl (State.checkQueue p) left : State) with gates := u.gates, opportunities := u.opportunities } ∧
        (∀ o, o ∈ (u.gates.get p).windows ↔
          (o ∈ (s.gates.get p).windows ∧ ¬ closing o) ∨
          (runs ∧ ∃ w ∈ s.gen.active.windows.zipIdx, opens w ∧
            o = { index := w.2, classes := w.1.classes, guarded := w.1.guarded, exclusive := w.1.exclusive
                  close := if w.1.closeOffset.toNat < s.timer.effLength then .at w.1.closeOffset.toNat
                    else .cycleEnd })) ∧
        (∀ c, (u.gates.get p).gate.get c = u.gateOpen p c ∧ (u.gates.get p).bound.get c = u.guardBound p c) ∧
        (u.opportunities.get p = true ↔ s.opportunities.get p = true ∨
          (∃ c ∈ named, (s.egress p c).head?.any (Desc.isLate s.timer.cycleCount) = true) ∨
          ∃ c, (u.gates.get p).gate.get c = true ∧ ((s.gates.get p).gate.get c = false ∨
            ∃ b, (s.gates.get p).bound.get c = some b ∧ ∀ b', (u.gates.get p).bound.get c = some b' → b < b')) ∧
        (∀ q, q ≠ p → u.opportunities.get q = s.opportunities.get q) ∧
        (∀ c, u.egress p c =
          if ∃ o ∈ (s.gates.get p).windows, closing o ∧ o.classes.getLsbD c.val = true then
            (s.egress p c).filter fun d => !d.isLate s.timer.cycleCount
          else s.egress p c) ∧
        (∀ q, q ≠ p → u.gates.get q = s.gates.get q ∧ ∀ c, u.egress q c = s.egress q c) ∧
        (∀ q, (u.port q).state = (s.port q).state ∧ (u.port q).tx = (s.port q).tx ∧ (u.port q).rx = (s.port q).rx ∧
          (u.port q).holder = (s.port q).holder) ∧
        u.timer = s.timer ∧ u.gen = s.gen ∧ u.store.mem = s.store.mem ∧
        u.mgmt = { s.mgmt with notices := u.mgmt.notices })

/-- When a gate is open (R81), and when it has a guard bound and which (R85). -/
def Obligations.GatesAndGuardBoundsFollowTheOpenWindows : Prop :=
  ∀ (s : State) (p : Port) (c : Cls),
    let names := fun o => o ∈ (s.gates.get p).windows ∧ o.classes.getLsbD c.val = true
    let scheduled := (s.base.scheduled.get p).getLsbD c.val = true
    let point := fun o : OpenWindow => match o.close with | .at q => q | .cycleEnd => s.timer.effLength
    (s.gateOpen p c = true ↔
      ((∀ o ∈ (s.gates.get p).windows, o.exclusive = false) ∨ (∃ o, names o ∧ o.exclusive = true)) ∧
      ((∃ o, names o) ∨ ¬ scheduled)) ∧
    (∀ b, s.guardBound p c = some b ↔
      s.gateOpen p c = true ∧ scheduled ∧ (∀ o, names o → o.guarded = true) ∧
        (∃ o, names o ∧ point o = b) ∧ ∀ o, names o → point o ≤ b) ∧
    (s.guardBound p c = none ↔ s.gateOpen p c = false ∨ ¬ scheduled ∨ ∃ o, names o ∧ o.guarded = false)

/-- When a descriptor is late (R87): never with max wait NONE, and with a stamp by its cycle count. -/
def Obligations.LatenessComparesCycleCounts : Prop :=
  ∀ (d : Desc) (now : W32), (d.maxWait = none → d.isLate now = false) ∧
    ∀ st, d.stamp = some st → (d.isLate now = true ↔
      ∃ w, d.maxWait = some w ∧ d.late ≠ .hold ∧ w < (now.toNat + 4294967296 - st.cycleCount.toNat) % 4294967296)

/-- The lateness check of one queue (R63, R72, R88, R110): the late copies leave, are counted late, and in queue order
become records under RETAIN while retention has room; of the others the slots are released, and the dropped and
management frames lost counters rise; an offer that retention refuses counts as overflow; the removal of the head is a
start opportunity (R97). -/
def Obligations.LatenessCheckTakesTheLateCopies : Prop :=
  ∀ (s : State) (p : Port) (c : Cls),
    let late := (s.egress p c).filter (Desc.isLate s.timer.cycleCount)
    let kept := late.filterMap fun d =>
      match d.origin with
      | .stream i => if d.late = .retain then some (d.toRecord i .late p) else none
      | _ => none
    let taken : State := { s with
      queues := s.queues.set p ((s.queues.get p).set c ((s.egress p c).filter fun d => !d.isLate s.timer.cycleCount))
      streams := s.streams.mapIdx fun j (st : StreamState) => { st with counters := { st.counters with
        late := st.counters.late +
          BitVec.ofNat 32 (late.countP fun d => decide (d.stream?.map BitVec.toNat = some j)) } } }
    let t := State.checkQueue p s c
    (∃ v, taken.Disposed v p (late.map fun d => (d, Reason.late)) ∧ t = { v with opportunities := t.opportunities }) ∧
    t.egress p c = (s.egress p c).filter (fun d => !d.isLate s.timer.cycleCount) ∧
    (∀ q k, (q, k) ≠ (p, c) → t.egress q k = s.egress q k) ∧
    t.retention.records = s.retention.records ++ kept.take (32 - s.retention.records.length) ∧
    (∀ i : Byte, i.toNat < s.streams.length → (t.stream i).counters.late = (s.stream i).counters.late +
      BitVec.ofNat 32 (late.countP fun d => decide (d.origin = .stream i))) ∧
    (∀ q, t.opportunities.get q =
      (s.opportunities.get q || (decide (q = p) && (s.egress p c).head?.any (Desc.isLate s.timer.cycleCount)))) ∧
    t.timer = s.timer ∧ t.gates = s.gates ∧ t.gen = s.gen ∧ t.store.mem = s.store.mem

/-- The gates at a change between held and running by a correction (R84) and at a step event (R92): closes with
lateness checks in port and class order when the part is running, a withdrawal without them when it is held, then the
windows that cover the position; and a pending AT_ROUND commit at a step event (R128). How exec comes to them stands
in ServoCorrects and ServoSteps. -/
def Obligations.SyncAndStepEventsRenewTheWindows : Prop :=
  ∀ (s : State) (p : Port) (c : Commit) (r : W16),
    let runs := s.base.unlocked = .runLocal ∨ s.timer.sync = .locked ∨ s.timer.sync = .holdover
    let opens := fun (pos : Nat) (o : OpenWindow) => ∃ w ∈ s.gen.active.windows.zipIdx,
      w.1.valid = true ∧ w.1.port = p ∧
      w.1.activeIn s.timer.round s.timer.index = true ∧ w.1.openOffset.toNat ≤ pos ∧
      (pos < w.1.closeOffset.toNat ∨ s.timer.effLength ≤ w.1.closeOffset.toNat) ∧
      o = { index := w.2, classes := w.1.classes, guarded := w.1.guarded, exclusive := w.1.exclusive
            close := if w.1.closeOffset.toNat < s.timer.effLength then .at w.1.closeOffset.toNat else .cycleEnd }
    let ahead := (r.toNat + 65536 - s.timer.round.toNat) % 65536
    (∀ was, s.SyncEvent (State.gatesSyncEvent was s) (was = true)) ∧
    s.Renewed s.gatesStep (decide (s.base.unlocked = .runLocal ∨ s.timer.sync = .locked ∨ s.timer.sync = .holdover))
      (s.Spans s.timer.position) ∧
    (∀ was, (was = true ↔ runs) → State.gatesSyncEvent was s = s) ∧
    (¬ runs → ((State.gatesSyncEvent true s).gates.get p).windows = [] ∧
      (∀ k, ((State.gatesSyncEvent true s).gates.get p).gate.get k = !(s.base.scheduled.get p).getLsbD k.val) ∧
      ∀ k, (State.gatesSyncEvent true s).egress p k = s.egress p k) ∧
    (runs → ∀ o, o ∈ ((State.gatesSyncEvent false s).gates.get p).windows ↔
      o ∈ (s.gates.get p).windows ∨
      opens (min s.timer.position (s.timer.effLength - 1)) o ∧ ∀ o' ∈ (s.gates.get p).windows, o'.index ≠ o.index) ∧
    (∀ o, o ∈ (s.gatesStep.gates.get p).windows ↔ runs ∧ opens s.timer.position o) ∧
    (s.gen.commit = none ∨ (s.gen.commit = some c ∧ c.target = .nextRound) → s.commitStep = s) ∧
    (s.gen.commit = some c → c.target = .atRound r → 1 ≤ ahead → ahead ≤ 32767 → s.commitStep = s) ∧
    (s.gen.commit = some c → c.target = .atRound r → (ahead = 0 ∨ 32768 ≤ ahead) →
      s.commitStep = State.completeOp { s with gen := { s.gen with commit := none } } c.requester c.tag c.ingress 0x0A
        c.slot .missedRound (some (.round r)))

/-- The validation of a bank passes exactly when its base record and its valid entries pass every check of the table;
and a failure names the first failing check of the first failing table and entry, the base record coming first, then
the windows and then the streams in index order (R125). -/
def Obligations.ValidationPassesExactlyTheSoundBanks : Prop :=
  ∀ bank : Bank,
    let windowPasses := fun w : WindowEntry => w.valid = true → ∀ c ∈ w.Conditions bank.base, c
    let streamPasses := fun e : StreamEntry => e.valid = true → ∀ c ∈ e.Conditions, c
    let basePasses := ∀ c ∈ bank.base.Conditions, c
    (bank.validate = none ↔ basePasses ∧ (∀ w ∈ bank.windows, windowPasses w) ∧ ∀ e ∈ bank.streams, streamPasses e) ∧
    ∀ f : Invalid, bank.validate = some f ↔
      (f.table = 0 ∧ f.index = 0 ∧ FirstFails bank.base.Conditions f.check) ∨
      (basePasses ∧ f.table = 1 ∧ ∃ w, bank.windows[f.index]? = some w ∧ w.valid = true ∧
        FirstFails (w.Conditions bank.base) f.check ∧ ∀ x ∈ bank.windows.take f.index, windowPasses x) ∨
      (basePasses ∧ (∀ w ∈ bank.windows, windowPasses w) ∧ f.table = 2 ∧ ∃ e, bank.streams[f.index]? = some e ∧
        e.valid = true ∧ FirstFails e.Conditions f.check ∧ ∀ x ∈ bank.streams.take f.index, streamPasses x)

/-- The tests of a taken request (R139, R145, R151, R171): a condition of its requester is delivered in place of its
execution, and an unknown kind, or a length other than the table of chapter 10 gives, is a BAD_REQUEST. That a request
step of a STOPPED engine, or of one with nothing to take, leaves the state as it is, is the model's choice
(notes/assumptions/5.md and 21.md). -/
def Obligations.TakeTestsComeBeforeExecution : Prop :=
  ∀ (s s1 : State) (req : Request), req.slot < 384 →
    (∀ e, s.Takes s1 req true → s1.mgmt.conditions.find? (fun c => c.requester == req.requester) = some e →
      ∃ u, exec (requestCommand req.kind) s = .next u.settle ∧
        State.ReplyQueued
          (s1.setConditions (s1.mgmt.conditions.filter fun c => !(c.requester == req.requester))) u req.ingress req.slot
          { s1.plainReply req .condition 0
              (beBytes 2 e.tag.toNat ++ [e.kind, statusCode e.status] ++
                (match e.detail with | .round r => beBytes 2 r.toNat | .port p => [0, portCode p]) ++
                [BitVec.ofNat 8 e.further]) with isCond := true }
          ({ s1.mgmt with
              conditions := s1.mgmt.conditions.filter fun c => !(c.requester == req.requester) }.answeredTo req
            .condition .idle)) ∧
    (s.Takes s1 req false → (req.kind.toNat = 0 ∨ 18 < req.kind.toNat) →
      Answers .unknownRequestKind s s1 req .badRequest 0 []) ∧
    (s.Takes s1 req false → 1 ≤ req.kind.toNat → req.kind.toNat ≤ 18 →
      req.length ≠ requiredLength req.kind.toNat (s1.param req 1).toNat →
      Answers (requestCommand req.kind) s s1 req .badRequest 0 []) ∧
    (∀ k count, requiredLength k count =
      if k = 0x06 then max 32 (26 + 32 * count) else if k = 0x07 then max 32 (26 + 16 * count)
      else if k = 0x08 then 88 else 32) ∧
    (s1.formOk req = true ↔ 1 ≤ req.kind.toNat ∧ req.kind.toNat ≤ 18 ∧
      req.length = requiredLength req.kind.toNat (s1.param req 1).toNat) ∧
    (∀ k, (s.mgmt.engine = .stopped ∨ (s.mgmt.engine = .idle ∧ s.mgmt.requests = [])) →
      exec (requestCommand k) s = .next s)

/-- The end of an outstanding operation (R141, R143, R144): a reply in the kept slot, nothing, or a condition. And the
bytes of every reply, field by field at the offsets of 12.2, with zeros in the header extension and behind the data
(R169), and the status codes of 12.6 (R136). That the four check bytes, which R169 gives as the CRC of the frame, stand
as zero in the slot until the frame is sent is the model's reading (notes/assumptions/23.md). -/
def Obligations.OutstandingOperationEnds : Prop :=
  ∀ (s : State) (requester : Byte) (tag : W16) (ingress : Port) (kind : Byte) (status : Status),
    (∀ n f, n < 384 → s.ReplyQueued (s.completeOp requester tag ingress kind (some n) status f) ingress n
      { requester := requester, streamTag := frameTag (s.slotBytes n 16), sequence := frameSeq (s.slotBytes n 16)
        tag := tag, kind := kind, status := status, isRepeat := false, isCond := false, residue := 0, data := [] }
      { s.mgmt with answered := remember s.mgmt.answered ⟨requester, tag, kind, status⟩ }) ∧
    s.completeOp requester tag ingress kind none status none = s ∧
    (∀ d, (∀ c ∈ s.mgmt.conditions, c.requester ≠ requester) →
      s.completeOp requester tag ingress kind none status (some d) =
        { s with mgmt := { s.mgmt with
            conditions := s.mgmt.conditions ++ [⟨requester, tag, kind, status, d, 0⟩] } }) ∧
    (∀ d before e after, s.mgmt.conditions = before ++ e :: after → e.requester = requester →
      (∀ c ∈ before ++ after, c.requester ≠ requester) →
      s.completeOp requester tag ingress kind none status (some d) =
        { s with mgmt := { s.mgmt with
            conditions := before ++ { e with further := e.further + 1 } :: after } }) ∧
    (∀ (r : Reply) (node epoch : Byte) (generation : W16),
      let bytes := replyBytes r node epoch generation
      bytes.length = replyLength r ∧ replyLength r = max 32 (30 + r.data.length) ∧
      byteAt bytes 0x00 = r.requester ∧ byteAt bytes 0x01 = node ∧ byteAt bytes 0x02 = 0x04 ∧
      byteAt bytes 0x03 = r.sequence ∧ numAt bytes 0x04 2 = r.streamTag.toNat ∧
      numAt bytes 0x06 2 = replyLength r % 65536 ∧ (bytes.drop 0x08).take 8 = [0, 0, 0, 0, 0, 0, 0, 0] ∧
      numAt bytes 0x10 2 = r.tag.toNat ∧ byteAt bytes 0x12 = r.kind ∧ byteAt bytes 0x13 = statusCode r.status ∧
      (byteAt bytes 0x14).toNat = (if r.isRepeat then 1 else 0) + (if r.isCond then 2 else 0) ∧
      byteAt bytes 0x15 = epoch ∧ numAt bytes 0x16 2 = generation.toNat ∧ numAt bytes 0x18 2 = r.residue % 65536 ∧
      (bytes.drop 0x1A).take r.data.length = r.data ∧ ∀ x ∈ bytes.drop (0x1A + r.data.length), x = 0) ∧
    [Status.done, .accepted, .empty, .badRequest, .badParameter, .refusedBusy, .queueFull, .duplicatePending,
      .commitPending, .notPending, .tooLate, .invalidTables, .notSynced, .missedRound, .linkAbsent, .cancelled,
      .condition].map statusCode = (List.range 17).map fun k => BitVec.ofNat 8 k

/-- IDENTIFY and READ STATUS return the part as it stands, field by field at the offsets of 12.2, and change nothing
(R152, R153). That a granted EARLY_ACK is reported as 01h is the model's choice (notes/assumptions/31.md), and the
position reported at the quantum of a cycle end that is not taken yet is its reading (notes/assumptions/6.md). -/
def Obligations.IdentifyAndReadStatusReport : Prop :=
  ∀ (s s1 : State) (req : Request), s.Runs s1 req →
    (req.kind = 0x01 → Answers .identify s s1 req .done 0
      [0x14, 0x07, 0x01, 0xA0, 1, 3, 4, 0x01, 0x80, 0x01, 0x00, 64, 32, s1.straps.setWidth 8]) ∧
    (req.kind = 0x02 → ∃ data, Answers .readStatus s s1 req .done 0 data ∧ data.length = 74 ∧
      byteAt data 0x00 = portStateCode (s1.port .A).state ∧ byteAt data 0x01 = portStateCode (s1.port .B).state ∧
      byteAt data 0x02 = portStateCode (s1.port .L).state ∧ byteAt data 0x03 = syncStateCode s1.timer.sync ∧
      (byteAt data 0x04).toNat = s1.timer.good % 256 ∧ numAt data 0x05 4 = s1.positionNow % 4294967296 ∧
      numAt data 0x09 4 = s1.timer.effLength % 4294967296 ∧ (byteAt data 0x0D).toNat = s1.timer.index % 256 ∧
      numAt data 0x0E 2 = s1.timer.round.toNat ∧ numAt data 0x10 4 = s1.timer.cycleCount.toNat ∧
      (numAt data 0x14 2 : Int) = s1.timer.trim % 65536 ∧ (numAt data 0x16 4 : Int) = s1.timer.lastErr % 4294967296 ∧
      numAt data 0x1A 2 = s1.gen.number.toNat ∧
      (s1.gen.commit = none → (data.drop 0x1C).take 8 = [0, 0xFF, 0, 0, 0, 0, 0, 0]) ∧
      (∀ c, s1.gen.commit = some c → byteAt data 0x1C = 1 ∧
        byteAt data 0x1D = (if c.target = .nextRound then 0 else 1) ∧
        numAt data 0x1E 2 = (match c.target with | .nextRound => 0 | .atRound r => r.toNat) ∧
        byteAt data 0x20 = c.requester ∧ numAt data 0x21 2 = c.tag.toNat ∧ byteAt data 0x23 = flagByte c.early) ∧
      numAt data 0x24 2 = s1.store.free.length % 65536 ∧ numAt data 0x26 2 = 512 - s1.descsInUse ∧
      (∀ c : Cls, (byteAt data (0x28 + c.val)).toNat = (s1.egress .A c).length % 256 ∧
        (byteAt data (0x2C + c.val)).toNat = (s1.egress .B c).length % 256 ∧
        (byteAt data (0x30 + c.val)).toNat = (s1.egress .L c).length % 256) ∧
      (byteAt data 0x34).toNat = s1.retention.records.length % 256 ∧
      numAt data 0x35 4 = s1.retention.overflow.toNat ∧
      (∀ p, (s1.mgmt.portControl.get p = none → (data.drop (0x39 + 5 * portBit p)).take 5 = [0, 0, 0, 0xFF, 0]) ∧
        ∀ o, s1.mgmt.portControl.get p = some o →
          byteAt data (0x39 + 5 * portBit p) = o.requester ∧ numAt data (0x3A + 5 * portBit p) 2 = o.tag.toNat ∧
          byteAt data (0x3C + 5 * portBit p) = (if o.op = .enable then 0 else 1) ∧
          byteAt data (0x3D + 5 * portBit p) = flagByte o.early) ∧
      (byteAt data 0x48).toNat = s1.mgmt.conditions.length % 256 ∧
      (byteAt data 0x49).toNat = s1.mgmt.requests.length % 256)

/-- READ STREAM COUNTERS, READ PORT COUNTERS and CLEAR COUNTERS (R16, R17, R53, R57, R154, R155). That an expectation that
is present is reported with 01h is the model's choice (notes/assumptions/31.md). -/
def Obligations.CountersAreReadAndCleared : Prop :=
  ∀ (s s1 : State) (req : Request), s.Runs s1 req →
    let p0 := s1.param req 0
    let p1 := s1.param req 1
    let p2 := s1.param req 2
    let clearPorts := fun t : State => { t with ports :=
      ⟨{ t.ports.A with counters := ⟨0, 0, 0, 0, 0, 0, 0, 0, 0, 0⟩ },
        { t.ports.B with counters := ⟨0, 0, 0, 0, 0, 0, 0, 0, 0, 0⟩ },
        { t.ports.L with counters := ⟨0, 0, 0, 0, 0, 0, 0, 0, 0, 0⟩ }⟩ }
    let clearStreams := fun t : State =>
      { t with streams := t.streams.map fun st => { st with counters := ⟨0, 0, 0, 0, 0, 0, 0⟩ } }
    (req.kind = 0x03 → (p1.toNat = 0 ∨ 12 < p1.toNat ∨ 256 < p0.toNat + p1.toNat ∨ 1 < p2.toNat) →
      Answers .readStreamCounters s s1 req .badParameter 0 []) ∧
    (req.kind = 0x03 → 1 ≤ p1.toNat → p1.toNat ≤ 12 → p0.toNat + p1.toNat ≤ 256 → p2.toNat ≤ 1 →
      ∃ data s2, Answers .readStreamCounters s s2 req .done 0 data ∧ data.length = 40 * p1.toNat ∧
        s2 = (if p2 = 1 then { s1 with streams := s1.streams.mapIdx fun j st =>
          if p0.toNat ≤ j ∧ j < p0.toNat + p1.toNat then { st with counters := ⟨0, 0, 0, 0, 0, 0, 0⟩ }
          else st } else s1) ∧
        ∀ k st, k < p1.toNat → s1.streams[p0.toNat + k]? = some st →
          numAt data (40 * k) 4 = st.counters.matched.toNat ∧ numAt data (40 * k + 4) 4 = st.counters.forwarded.toNat ∧
          numAt data (40 * k + 8) 4 = st.counters.dropped.toNat ∧ numAt data (40 * k + 12) 4 = st.counters.late.toNat ∧
          numAt data (40 * k + 16) 4 = st.counters.overBudget.toNat ∧
          numAt data (40 * k + 20) 4 = st.counters.duplicates.toNat ∧
          numAt data (40 * k + 24) 4 = st.counters.gaps.toNat ∧
          (st.stamp = none → (data.drop (40 * k + 28)).take 8 = [0, 0, 0, 0, 0, 0, 0, 0]) ∧
          (∀ x, st.stamp = some x → byteAt data (40 * k + 28) = 1 ∧ numAt data (40 * k + 29) 2 = x.round.toNat ∧
            (byteAt data (40 * k + 31)).toNat = x.index % 256 ∧ numAt data (40 * k + 32) 4 = x.position % 4294967296) ∧
          numAt data (40 * k + 36) 2 = st.budgetUsed % 65536 ∧
          (data.drop (40 * k + 38)).take 2 = (match st.expectation with | none => [0, 0] | some x => [1, x])) ∧
    (req.kind = 0x04 → 1 < p0.toNat → Answers .readPortCounters s s1 req .badParameter 0 []) ∧
    (req.kind = 0x04 → p0.toNat ≤ 1 → ∃ data,
      Answers .readPortCounters s (if p0 = 1 then clearPorts s1 else s1) req .done 0 data ∧ data.length = 120 ∧
      ∀ p, let c := (s1.port p).counters
        numAt data (40 * portBit p) 4 = c.received.toNat ∧ numAt data (40 * portBit p + 4) 4 = c.crcErrors.toNat ∧
        numAt data (40 * portBit p + 8) 4 = c.lengthErrors.toNat ∧
        numAt data (40 * portBit p + 12) 4 = c.noBuffer.toNat ∧
        numAt data (40 * portBit p + 16) 4 = c.unmatched.toNat ∧ numAt data (40 * portBit p + 20) 4 = c.sent.toNat ∧
        numAt data (40 * portBit p + 24) 4 = c.aborted.toNat ∧
        numAt data (40 * portBit p + 28) 4 = c.foreignSync.toNat ∧
        numAt data (40 * portBit p + 32) 4 = c.syncReplaced.toNat ∧
        numAt data (40 * portBit p + 36) 4 = c.mgmtLost.toNat) ∧
    (req.kind = 0x10 → p0 = 0 → Answers .clearCounters s (clearStreams s1) req .done 0 []) ∧
    (req.kind = 0x10 → p0 = 1 → Answers .clearCounters s (clearPorts s1) req .done 0 []) ∧
    (req.kind = 0x10 → p0 = 2 → Answers .clearCounters s (clearPorts (clearStreams s1)) req .done 0 []) ∧
    (req.kind = 0x10 → 2 < p0.toNat → Answers .clearCounters s s1 req .badParameter 0 [])

/-- READ ENTRIES returns the images of the bank that holds the named role (R156). -/
def Obligations.ReadEntriesReturnsImages : Prop :=
  ∀ (s s1 : State) (req : Request), s.Runs s1 req → req.kind = 0x05 →
    let first := (s1.param req 2).toNat
    let count := (s1.param req 3).toNat
    let inRange := ((s1.param req 1).toNat = 0 ∧ 1 ≤ count ∧ count ≤ 15 ∧ first + count ≤ 256) ∨
      ((s1.param req 1).toNat = 1 ∧ 1 ≤ count ∧ count ≤ 30 ∧ first + count ≤ 64) ∨
      ((s1.param req 1).toNat = 2 ∧ first = 0 ∧ count = 1)
    (1 < (s1.param req 0).toNat ∨ ¬ inRange → Answers .readEntries s s1 req .badParameter 0 []) ∧
    (∀ bank : Bank, (s1.param req 0 = 0 ∧ bank = s1.gen.active ∨ s1.param req 0 = 1 ∧ bank = s1.gen.shadow) → inRange →
      ∃ data, Answers .readEntries s s1 req .done 0 data ∧
        (s1.param req 1 = 0 → ∀ k e, k < count → bank.streams[first + k]? = some e →
          (data.drop (32 * k)).take 32 = streamImage e) ∧
        (s1.param req 1 = 1 → ∀ k w, k < count → bank.windows[first + k]? = some w →
          (data.drop (16 * k)).take 16 = windowImage w) ∧
        (s1.param req 1 = 2 → data = baseImage bank.base))

/-- The three staging requests and COPY ACTIVE TO SHADOW (R121, R122, R157, R170): in IDLE they write the shadow whole
or not at all, in PENDING not at all. -/
def Obligations.StagingWritesTheShadowWhole : Prop :=
  ∀ (s s1 : State) (req : Request), s.Runs s1 req →
    let first := (s1.param req 0).toNat
    let count := (s1.param req 1).toNat
    let image := fun (size k : Nat) => s1.paramBlock req (2 + size * k) size
    let shadow := fun b : Bank => { s1 with gen := { s1.gen with shadow := b } }
    (req.kind = 0x06 → (count = 0 ∨ 15 < count ∨ 256 < first + count) →
      Answers .stageStreamEntries s s1 req .badParameter 0 []) ∧
    (req.kind = 0x07 → (count = 0 ∨ 30 < count ∨ 64 < first + count) →
      Answers .stageWindowEntries s s1 req .badParameter 0 []) ∧
    (s1.gen.commit.isSome = true →
      (req.kind = 0x06 → 1 ≤ count → count ≤ 15 → first + count ≤ 256 →
        Answers .stageStreamEntries s s1 req .commitPending 0 []) ∧
      (req.kind = 0x07 → 1 ≤ count → count ≤ 30 → first + count ≤ 64 →
        Answers .stageWindowEntries s s1 req .commitPending 0 []) ∧
      (req.kind = 0x08 → Answers .stageBaseRecord s s1 req .commitPending 0 []) ∧
      (req.kind = 0x09 → Answers .copyActiveToShadow s s1 req .commitPending 0 [])) ∧
    (s1.gen.commit = none →
      (req.kind = 0x06 → 1 ≤ count → count ≤ 15 → first + count ≤ 256 →
        (∀ k, k < count → (∀ j, j < k → streamEncodingOk (image 32 j) = true) → streamEncodingOk (image 32 k) = false →
          Answers .stageStreamEntries s s1 req .badParameter (first + k) []) ∧
        ((∀ k, k < count → streamEncodingOk (image 32 k) = true) → ∃ new,
          Answers .stageStreamEntries s (shadow { s1.gen.shadow with streams := new }) req .done 0 [] ∧
          new.length = s1.gen.shadow.streams.length ∧
          ∀ j, j < new.length → new[j]? =
            if first ≤ j ∧ j < first + count then some (streamOfImage (image 32 (j - first)))
            else s1.gen.shadow.streams[j]?)) ∧
      (req.kind = 0x07 → 1 ≤ count → count ≤ 30 → first + count ≤ 64 →
        (∀ k, k < count → (∀ j, j < k → windowEncodingOk (image 16 j) = true) → windowEncodingOk (image 16 k) = false →
          Answers .stageWindowEntries s s1 req .badParameter (first + k) []) ∧
        ((∀ k, k < count → windowEncodingOk (image 16 k) = true) → ∃ new,
          Answers .stageWindowEntries s (shadow { s1.gen.shadow with windows := new }) req .done 0 [] ∧
          new.length = s1.gen.shadow.windows.length ∧
          ∀ j, j < new.length → new[j]? =
            if first ≤ j ∧ j < first + count then some (windowOfImage (image 16 (j - first)))
            else s1.gen.shadow.windows[j]?)) ∧
      (req.kind = 0x08 → baseEncodingOk (s1.paramBlock req 0 64) = false →
        Answers .stageBaseRecord s s1 req .badParameter 0 []) ∧
      (req.kind = 0x08 → baseEncodingOk (s1.paramBlock req 0 64) = true →
        Answers .stageBaseRecord s (shadow { s1.gen.shadow with base := baseOfImage (s1.paramBlock req 0 64) }) req
          .done 0 []) ∧
      (req.kind = 0x09 → Answers .copyActiveToShadow s (shadow s1.gen.active) req .done 0 []))

/-- COMMIT is decided by its tests in order, and CANCEL COMMIT ends a pending commit before it is answered (R124,
R129, R142, R158). -/
def Obligations.CommitIsDecidedInOrder : Prop :=
  ∀ (s s1 : State) (req : Request) (target : Target) (r : W16), s.Runs s1 req →
    r = BitVec.ofNat 16 (numAt (s1.slotBytes req.slot req.length) 0x15 2) →
    let ahead := (r.toNat + 65536 - s1.timer.round.toNat) % 65536
    let granted := req.flags.getLsbD 0 = true ∧ s1.mgmt.conditions.length + s1.earlyOps < 4
    let entered := fun (early : Bool) (slot : Option Nat) => { s1 with gen := { s1.gen with
      commit := some ⟨req.requester, req.tag, req.ingress, early, target, slot⟩ } }
    (req.kind = 0x0A → 1 < (s1.param req 0).toNat → Answers .commit s s1 req .badParameter 0 []) ∧
    (req.kind = 0x0A → (s1.param req 0 = 0 ∧ target = .nextRound ∨ s1.param req 0 = 1 ∧ target = .atRound r) →
      (s1.gen.commit.isSome = true → Answers .commit s s1 req .refusedBusy 0 []) ∧
      (s1.gen.commit = none → target = .atRound r → (ahead = 0 ∨ 32768 ≤ ahead) →
        Answers .commit s s1 req .tooLate 0 []) ∧
      (s1.gen.commit = none → (target = .nextRound ∨ (1 ≤ ahead ∧ ahead ≤ 32767)) →
        (∀ f, s1.gen.shadow.validate = some f →
          Answers .commit s s1 req .invalidTables f.index [f.table, BitVec.ofNat 8 f.check]) ∧
        (s1.gen.shadow.validate = none → granted → Answers .commit s (entered true none) req .accepted 0 []) ∧
        (s1.gen.shadow.validate = none → ¬ granted →
          exec .commit s = .next ((entered false (some req.slot)).setEngine .idle).settle))) ∧
    (req.kind = 0x0B → s1.gen.commit = none → Answers .cancelCommit s s1 req .notPending 0 []) ∧
    (req.kind = 0x0B → ∀ c, s1.gen.commit = some c →
      Answers .cancelCommit s
        (State.completeOp { s1 with gen := { s1.gen with commit := none } } c.requester c.tag c.ingress 0x0A c.slot
          .cancelled none) req .done 0 [])

/-- PORT CONTROL by the port's slot and state (R13, R14, R142, R159). A DISABLE of an UP port with nothing in flight
disposes of its queues in class order (R12, R72). That both check counts become 0 on entering DISABLING is the model's
reading (notes/assumptions/15.md) of R9's words "both counts stay 0". -/
def Obligations.PortControlActsByThePortsState : Prop :=
  ∀ (s s1 : State) (req : Request) (p : Port) (op : PortOp), s.Runs s1 req → req.kind = 0x0C →
    let listed := s1.param req 0 = portCode p ∧ s1.param req 1 = (match op with | .enable => 0 | .disable => 1)
    let state := (s1.port p).state
    let granted := req.flags.getLsbD 0 = true ∧ s1.mgmt.conditions.length + s1.earlyOps < 4
    let waits := fun s2 : State =>
      (granted → Answers .portControl s
        (s2.setPortControl p (some ⟨req.requester, req.tag, req.ingress, true, op, none⟩)) req .accepted 0 []) ∧
      (¬ granted → exec .portControl s = .next ((s2.setPortControl p
        (some ⟨req.requester, req.tag, req.ingress, false, op, some req.slot⟩)).setEngine .idle).settle)
    (2 < (s1.param req 0).toNat ∨ 1 < (s1.param req 1).toNat → Answers .portControl s s1 req .badParameter 0 []) ∧
    (listed → (s1.mgmt.portControl.get p).isSome = true → Answers .portControl s s1 req .refusedBusy 0 []) ∧
    (listed → s1.mgmt.portControl.get p = none →
      (op = .enable → (state = .qualifying ∨ state = .up ∨ state = .down) → Answers .portControl s s1 req .done 0 []) ∧
      (op = .disable → state = .disabled → Answers .portControl s s1 req .done 0 []) ∧
      (op = .disable → (state = .qualifying ∨ state = .down) → Answers .portControl s
        ((s1.modPort p fun u => { u with good := 0, bad := 0, state := .disabled }).noticeEvent .portState) req .done 0
          []) ∧
      (op = .disable → state = .up → (s1.port p).tx = none → ∃ v s2 : State, Answers .portControl s s2 req .done 0 [] ∧
        (State.releaseSlot? { s1 with
          queues := s1.queues.set p ⟨[], [], [], []⟩
          ports := s1.ports.set p { s1.port p with
            state := .disabled, good := 0, bad := 0, rx := none, holder := none } }
          ((s1.port p).rx.bind Reception.slot)).Disposed v p
          ((s1.egress p 0 ++ s1.egress p 1 ++ s1.egress p 2 ++ s1.egress p 3).map fun d => (d, Reason.portDown)) ∧
        s2 = v.noticeEvent .portState ∧
        (s2.port p).state = .disabled ∧ (s2.port p).rx = none ∧ (s2.port p).holder = none ∧ (s2.port p).good = 0 ∧
        (s2.port p).bad = 0 ∧ (∀ c, s2.egress p c = []) ∧
        (∀ q, q ≠ p → s2.port q = s1.port q ∧ ∀ c, s2.egress q c = s1.egress q c) ∧
        s2.timer = s1.timer ∧ s2.gen = s1.gen ∧ s2.gates = s1.gates ∧ s2.store.mem = s1.store.mem ∧
        s2.mgmt = { s1.mgmt with notices := s2.mgmt.notices }) ∧
      (op = .disable → state = .up → (s1.port p).tx ≠ none →
        waits (((s1.abandonReception p).modPort p fun u =>
          { u with good := 0, bad := 0, state := .disabling }).noticeEvent .portState)) ∧
      (op = .enable → state = .disabled →
        waits ((s1.modPort p fun u =>
          { u with good := 0, bad := 0, qualCount := some 0, state := .qualifying }).noticeEvent .portState)))

/-- RETRIEVE RETAINED returns the head record and the first bytes of its frame, and removes it (R113, R161). -/
def Obligations.RetrieveReturnsTheHeadRecord : Prop :=
  ∀ (s s1 : State) (req : Request), s.Runs s1 req → req.kind = 0x0D →
    (s1.retention.records = [] → Answers .retrieveRetained s s1 req .empty 0 []) ∧
    (∀ r rest, s1.retention.records = r :: rest → ∃ data,
      Answers .retrieveRetained s
        (State.releaseSlot { s1 with retention := { s1.retention with records := rest } } r.slot) req .done
        (r.length - 472) data ∧
      data.length = 10 + min r.length 472 ∧
      (byteAt data 0).toNat = 16 * (reasonCode r.reason).toNat + r.cls.val ∧ byteAt data 1 = r.stream ∧
      (byteAt data 2).toNat = 16 * portBit r.ingress + (match r.egress with | none => 15 | some p => portBit p) ∧
      byteAt data 3 = (match r.maxWait with | none => 0xFF | some w => BitVec.ofNat 8 w) ∧
      numAt data 4 2 = r.stamp.round.toNat ∧ (byteAt data 6).toNat = r.stamp.index % 256 ∧
      numAt data 7 3 = r.stamp.position % 16777216 ∧
      ∀ i, i < min r.length 472 → byteAt data (10 + i) = readByte s1.store.mem (512 * r.slot + i))

/-- REQUEUE RETAINED moves records from the head, in order, until one stops it (R67, R114, R115, R161). Each record that
moves finds its port UP, its queue below its limit and below 128, and a descriptor free, with the records moved before
it counted; the record that stops the move fails the first of these tests that its cause names; and the ports that
received a record, and no others, have a new start opportunity (R97). -/
def Obligations.RequeueMovesRecordsInOrder : Prop :=
  ∀ (s s1 : State) (req : Request) (n : Nat), s.Runs s1 req → req.kind = 0x0E → n = (s1.param req 0).toNat →
    let moved := fun (j : Nat) (p : Port) (c : Cls) =>
      (s1.retention.records.take j).filter fun r => decide (r.egress = some p) && decide (r.cls = c)
    let depth := fun (j : Nat) (p : Port) (c : Cls) => (s1.egress p c).length + (moved j p c).length
    let atLimit := fun (j : Nat) (p : Port) (c : Cls) =>
      ((s1.base.limits.get p).get c).toNat ≤ depth j p c ∨ 128 ≤ depth j p c
    (n = 0 ∨ 32 < n → Answers .requeueRetained s s1 req .badParameter 0 []) ∧
    (1 ≤ n → n ≤ 32 → ∃ (k : Nat) (cause : Byte) (s2 : State),
      Answers .requeueRetained s s2 req .done (n - k) [BitVec.ofNat 8 k, cause] ∧ k ≤ n ∧
      k ≤ s1.retention.records.length ∧
      s2 = { s1 with
        queues := s2.queues, opportunities := s2.opportunities
        retention := { s1.retention with records := s1.retention.records.drop k } } ∧
      (∀ p c, s2.egress p c = s1.egress p c ++ (moved k p c).map fun r =>
        { slot := r.slot, origin := .stream r.stream, cls := r.cls, late := .retain, maxWait := r.maxWait
          stamp := some ⟨r.stamp, s1.timer.cycleCount⟩, ingress := some r.ingress, length := r.length }) ∧
      (∀ p, s2.opportunities.get p = true ↔ s1.opportunities.get p = true ∨
        ∃ r ∈ s1.retention.records.take k, r.egress = some p) ∧
      (∀ j r, j < k → s1.retention.records[j]? = some r → r.reason ≠ .captured ∧ s1.descsInUse + j < 512 ∧
        ∃ p, r.egress = some p ∧ (s1.port p).state = .up ∧ ¬ atLimit j p r.cls) ∧
      (cause = 0 ↔ k = n) ∧
      (cause = 1 ↔ k < n ∧ k = s1.retention.records.length) ∧
      (∀ r, k < n → s1.retention.records[k]? = some r →
        (r.reason = .captured → cause = 2) ∧
        (∀ p, r.reason ≠ .captured → r.egress = some p →
          ((s1.port p).state ≠ .up ∧ cause = 3) ∨
          ((s1.port p).state = .up ∧ atLimit k p r.cls ∧ cause = 4) ∨
          ((s1.port p).state = .up ∧ ¬ atLimit k p r.cls ∧ 512 ≤ s1.descsInUse + k ∧ cause = 5))))

/-- FLUSH RETAINED (R116): the records' slots are released from head to tail, and those whose count becomes 0 join the
tail of the free list in that order (R63). -/
def Obligations.FlushEmptiesTheRetentionQueue : Prop :=
  ∀ (s s1 : State) (req : Request), s.Runs s1 req → req.kind = 0x0F → ∃ s2 : State,
    Answers .flushRetained s s2 req .done 0 [BitVec.ofNat 8 s1.retention.records.length] ∧
    s2 = { s1 with retention := { s1.retention with records := [] }, store := s2.store } ∧
    s1.Released s2 (s1.retention.records.map Record.slot)

/-- QUEUE RESET discards the queues in port and class order, then the records and the SYNC holders, and nothing else;
the slots are released in that order, and those whose count becomes 0 join the tail of the free list (R63, R75, R118,
R162). -/
def Obligations.QueueResetDiscardsWhatWaits : Prop :=
  ∀ (s s1 : State) (req : Request), s.Runs s1 req → req.kind = 0x11 → ∃ s2 : State,
    Answers .queueReset s s2 req .done 0 [] ∧
    s2 = { s1 with
      queues := ⟨⟨[], [], [], []⟩, ⟨[], [], [], []⟩, ⟨[], [], [], []⟩⟩
      retention := { s1.retention with records := [] }
      ports := ⟨{ s1.ports.A with holder := none }, { s1.ports.B with holder := none },
        { s1.ports.L with holder := none }⟩
      store := s2.store } ∧
    s1.Released s2 ((s1.queues.toList.flatMap fun q => q.toList.flatMap fun ds => ds.map Desc.slot) ++
      s1.retention.records.map Record.slot)

/-- DEVICE RESET queues its reply, stops the engine, abandons the receptions and begins the drain (R106, R140, R163). That
the slots of the receptions join the free list in port order is the model's choice (notes/assumptions/32.md). -/
def Obligations.DeviceResetBeginsTheDrain : Prop :=
  ∀ (s s1 : State) (req : Request), s.Runs s1 req → req.kind = 0x12 → ∃ v u : State,
    s1.ReplyQueued v req.ingress req.slot (s1.plainReply req .done 0 []) (s1.mgmt.answeredTo req .done .stopped) ∧
    exec .deviceReset s = .next u.settle ∧
    u = { v with ports := u.ports, store := u.store, mgmt := { v.mgmt with
      drain := some ⟨if s1.mgmtAnswer req.ingress s1.mgmtClass = .accepted then some (req.ingress, s1.mgmtClass)
        else none, req.slot⟩ } } ∧
    v.Released u (v.ports.toList.filterMap fun x => x.rx.bind Reception.slot) ∧
    ∀ p, u.port p = { v.port p with rx := none }

/-- An event of a notice kind marks it (R146), and a try sends a wanted notice when there is room (R147), with the bytes of
12.3: zeros in the header extension, in the unused value bytes and behind the value (R169). That the four check bytes
stand as zero in the slot until the frame is sent is the model's reading (notes/assumptions/23.md). -/
def Obligations.NoticesAreMarkedAndTried : Prop :=
  ∀ (s : State) (k : NoticeKind) (m : NoticeMark) (p : Port), m = s.mgmt.notices.get k.place →
    portCode p = s.base.noticePort →
    let wanted := s.base.managerPresent = true ∧ s.base.noticeKinds.getLsbD k.place.val = true
    let room := (s.port p).state = .up ∧ (s.egress p s.mgmtClass).length < 128 ∧ 1 ≤ s.descsFree
    (¬ wanted → s.noticeEvent k = s) ∧
    (wanted → m.pending = false → s.noticeEvent k = s.setMark k ⟨true, 1⟩) ∧
    (wanted → m.pending = true → m.count < 255 → s.noticeEvent k = s.setMark k ⟨true, m.count + 1⟩) ∧
    (wanted → m.pending = true → m.count = 255 → s.noticeEvent k = s) ∧
    (m.pending = false → s.tryNotice k = s) ∧
    (m.pending = true → ¬ wanted → s.tryNotice k = s.setMark k ⟨false, 0⟩) ∧
    (m.pending = true → wanted → (¬ room ∨ s.store.free = []) → s.tryNotice k = s) ∧
    (∀ n rest, m.pending = true → wanted → room → s.store.free = n :: rest → ∃ bytes : List Byte,
      s.tryNotice k = State.setMark
        (State.append (State.writeSlot { s with
            store := { s.store with free := rest, count := s.store.count.set n 1 }
            mgmt := { s.mgmt with noticeSeq := s.mgmt.noticeSeq + 1 } } n bytes) p s.mgmtClass
          (mgmtDesc n s.mgmtClass 32)) k ⟨false, 0⟩ ∧
      bytes.length = 32 ∧ byteAt bytes 0 = s.base.manager ∧ byteAt bytes 1 = s.base.node ∧ byteAt bytes 2 = 0x05 ∧
      byteAt bytes 3 = s.mgmt.noticeSeq ∧ numAt bytes 4 2 = 0 ∧ numAt bytes 6 2 = 32 ∧
      (bytes.drop 8).take 8 = [0, 0, 0, 0, 0, 0, 0, 0] ∧ bytes.drop 23 = [0, 0, 0, 0, 0, 0, 0, 0, 0] ∧
      (k ≠ .portState → byteAt bytes 21 = 0) ∧ byteAt bytes 22 = 0 ∧
      (k = .syncState ∨ k = .retentionHigh → byteAt bytes 20 = 0) ∧
      (byteAt bytes 16).toNat = k.place.val ∧ (byteAt bytes 17).toNat = m.count % 256 ∧
      byteAt bytes 18 = s.mgmt.epoch ∧
      (k = .syncState → byteAt bytes 19 = syncStateCode s.timer.sync) ∧
      (k = .portState → byteAt bytes 19 = portStateCode (s.port .A).state ∧
        byteAt bytes 20 = portStateCode (s.port .B).state ∧ byteAt bytes 21 = portStateCode (s.port .L).state) ∧
      (k = .generation → numAt bytes 19 2 = s.gen.number.toNat) ∧
      (k = .retentionHigh → (byteAt bytes 19).toNat = s.retention.records.length % 256))

/-- Every step keeps the canonical form of the frame store's bytes (R60), and leaves no start opportunity untaken
(R98). Both fields' forms are the model's (notes/assumptions/2.md and 8.md). -/
def Obligations.MemoryFormAndOpportunitiesAreKept : Prop :=
  ∀ s t : State, memWf s.store.mem = true → s.opportunities = ⟨false, false, false⟩ → step s = .next t →
    memWf t.store.mem = true ∧ t.opportunities = ⟨false, false, false⟩

/-- Every step keeps the bounds of the lists (R65, R66, R110, R137, R141) and the ranges of the cycle timer (R21, R22,
R29, R30), and under valid banks those of the count: the cycle index below cycles per round, the position up to the
effective length, and the effective length within its bounds (R19, R21, R26, and the table of chapter 2). -/
def Obligations.BoundsAndRangesAreKept : Prop :=
  ∀ s t : State, step s = .next t → (s.WithinBounds → t.WithinBounds) ∧ (s.TimerInRange → t.TimerInRange) ∧
    (s.BanksValid → s.TimerInRange → s.CountInRange → t.CountInRange)

/-- Every step keeps the law of the frame store (R4, R60 to R63, R65): a slot's count is the number of its holders. -/
def Obligations.SlotLawIsKept : Prop :=
  ∀ s t : State, s.SlotLaw → step s = .next t → t.SlotLaw

/-- Every step keeps the active bank, and the bank a pending commit will swap in, valid (R122, R125, R127, R133). -/
def Obligations.BanksStayValid : Prop :=
  ∀ s t : State, s.BanksValid → step s = .next t → t.BanksValid

/-- Every step leaves the gates and bounds recorded that the open windows give (R81, R82, R85), and every frame that waits
in the queue of its own class (R64, R66). -/
def Obligations.GatesStayCurrent : Prop :=
  ∀ s t : State, step s = .next t →
    (s.GatesCurrent → t.GatesCurrent) ∧ (s.QueuedByClass → t.QueuedByClass)

/-- Every step keeps the early operations and conditions within four, and one condition for each requester (R142,
R144). -/
def Obligations.EarlyLawIsKept : Prop :=
  ∀ s t : State, s.EarlyLaw → step s = .next t → t.EarlyLaw

/-- The state after reset meets every invariant. That it stands at a strap value of 0 is the model's choice
(notes/assumptions/3.md). -/
def Obligations.ResetMeetsEveryInvariant : Prop :=
  memWf State.reset.store.mem = true ∧ State.reset.opportunities = ⟨false, false, false⟩ ∧ State.reset.WithinBounds ∧
    State.reset.SlotLaw ∧ State.reset.BanksValid ∧ State.reset.GatesCurrent ∧ State.reset.TimerInRange ∧
    State.reset.CountInRange ∧ State.reset.EarlyLaw ∧ State.reset.QueuedByClass

/-- Whatever the command, a transmission that starts, starts on an UP port, and a frame from a queue only while the gate
of that queue's class is open and within its guard bound (R86, R98, R99, R100). Every frame in a queue has that queue's
class (R64, R66), which GatesStayCurrent states of every step. The position of a start at the quantum of a cycle end is
the model's reading (notes/assumptions/6.md). -/
def Obligations.FramesStartOnlyThroughOpenGates : Prop :=
  ∀ (s t : State) (i : Instr) (p : Port) (tr : Transmission), s.QueuedByClass → exec i s = .next t →
    (t.port p).tx = some tr → (s.port p).tx ≠ some tr →
    (t.port p).state = .up ∧ tr.start = t.refCount ∧
    ∀ d, tr.sending = .desc d → (t.gates.get p).gate.get d.cls = true ∧
      (∀ b, (t.gates.get p).bound.get d.cls = some b → t.positionNow + tr.occupation ≤ b) ∧
      tr.occupation = (d.length + 12) * 10

/-- Whatever the command, a transmission in flight runs on, and where the law of the frame store holds the bytes of
its slot stand untouched, unless its occupation has passed, its port goes DOWN, or RESET_N or the power-on hold stops
it (R103). -/
def Obligations.TransmissionsRunToTheirEnd : Prop :=
  ∀ (s t : State) (i : Instr) (p : Port) (tr : Transmission), exec i s = .next t → (s.port p).tx = some tr →
    ((t.port p).tx = some tr ∧ ∀ d, s.SlotLaw → tr.sending = .desc d → ∀ o, o < 512 →
      readByte t.store.mem (slotBase d.slot + o) = readByte s.store.mem (slotBase d.slot + o)) ∨
    (i = .transmissionEnd p ∧ tr.start + tr.occupation ≤ s.refCount) ∨
    (i = .linkCheck p false ∧ (s.port p).state = .up ∧ (t.port p).state = .down) ∨
    i.isPowerCommand = true

/-- Whatever the command, the generation rises by one at a swap, which exchanges the banks, and is otherwise only set
to 0 by a reset; and the shadow of a pending commit is frozen (R119, R120, R122, R127). -/
def Obligations.GenerationRisesOnlyAtSwaps : Prop :=
  ∀ (s t : State) (i : Instr), exec i s = .next t →
    (t.gen.number = s.gen.number ∧ t.gen.active = s.gen.active ∨
      i = .cycleEnd ∧ t.gen.number = s.gen.number + 1 ∧ t.gen.active = s.gen.shadow ∧ t.gen.shadow = s.gen.active ∧
        t.gen.commit = none ∨
      i.isReset = true ∧ t.gen.number = 0 ∧ t.gen.commit = none) ∧
    (s.gen.commit ≠ none → t.gen.commit ≠ none → t.gen.shadow = s.gen.shadow)

/-- Every table entry is read back from its image, and every image that passes its encoding check is the image of the
entry it is read as (R121, R156, R170). The bytes of an image stand at the offsets of 12.4, with the codes of 12.6; and
an image passes its encoding check exactly when the bytes R170 lists hold a listed code and its sets have no bit above
their members. -/
def Obligations.TableImagesRoundTrip : Prop :=
  let code : List Byte → Byte → Prop := fun codes b => b ∈ codes
  let noBitFrom : Nat → Byte → Prop := fun n b => ∀ i, n ≤ i → b.getLsbD i = false
  (∀ e : StreamEntry, (streamImage e).length = 32 ∧ streamEncodingOk (streamImage e) = true ∧
    streamOfImage (streamImage e) = e) ∧
  (∀ w : WindowEntry, (windowImage w).length = 16 ∧ windowEncodingOk (windowImage w) = true ∧
    windowOfImage (windowImage w) = w) ∧
  (∀ b : BaseRecord, (baseImage b).length = 64 ∧ baseEncodingOk (baseImage b) = true ∧
    baseOfImage (baseImage b) = b) ∧
  (∀ bs : List Byte, bs.length = 32 → streamEncodingOk bs = true → streamImage (streamOfImage bs) = bs) ∧
  (∀ bs : List Byte, bs.length = 16 → windowEncodingOk bs = true → windowImage (windowOfImage bs) = bs) ∧
  (∀ bs : List Byte, bs.length = 64 → baseEncodingOk bs = true → baseImage (baseOfImage bs) = bs) ∧
  (∀ e : StreamEntry, let bs := streamImage e
    byteAt bs 0x00 = (if e.valid then 1 else 0) ∧
    (∀ i, (byteAt bs 0x01).getLsbD i = e.ports.getLsbD i) ∧ (∀ i, (byteAt bs 0x02).getLsbD i = e.kinds.getLsbD i) ∧
    (byteAt bs 0x03).toNat = (if e.srcAny then 1 else 0) + (if e.dstAny then 2 else 0) ∧
    byteAt bs 0x04 = e.src ∧ byteAt bs 0x05 = e.dst ∧
    numAt bs 0x06 2 = e.tagLow.toNat ∧ numAt bs 0x08 2 = e.tagHigh.toNat ∧
    byteAt bs 0x0A = (match e.action with | .forward => 0 | .drop => 1 | .retain => 2) ∧
    byteAt bs 0x0B =
      (match e.route with | .port .A => 0 | .port .B => 1 | .port .L => 2 | .bothOthers => 3 | .default => 4) ∧
    (byteAt bs 0x0C).toNat = e.cls.val ∧
    byteAt bs 0x0D = (match e.late with | .hold => 0 | .drop => 1 | .retain => 2) ∧
    byteAt bs 0x0E = e.maxWait ∧ byteAt bs 0x0F = (match e.overBudget with | .drop => 0 | .demote => 1) ∧
    numAt bs 0x10 2 = e.budget.toNat ∧ numAt bs 0x12 2 = e.maxLength.toNat ∧
    byteAt bs 0x14 = (match e.monitor with | .off => 0 | .count => 1 | .discard => 2) ∧
    byteAt bs 0x15 = (if e.capture then 1 else 0) ∧ numAt bs 0x16 10 = e.spare.toNat) ∧
  (∀ w : WindowEntry, let bs := windowImage w
    byteAt bs 0x00 = (if w.valid then 1 else 0) ∧
    byteAt bs 0x01 = (match w.port with | .A => 0 | .B => 1 | .L => 2) ∧
    (∀ i, (byteAt bs 0x02).getLsbD i = w.classes.getLsbD i) ∧
    (byteAt bs 0x03).toNat = (if w.guarded then 1 else 0) + (if w.exclusive then 2 else 0) ∧
    numAt bs 0x04 3 = w.openOffset.toNat ∧ numAt bs 0x07 3 = w.closeOffset.toNat ∧
    byteAt bs 0x0A = w.indexMatch ∧ byteAt bs 0x0B = w.modulus ∧ byteAt bs 0x0C = w.residue ∧
    numAt bs 0x0D 3 = w.spare.toNat) ∧
  (∀ b : BaseRecord, let bs := baseImage b
    numAt bs 0x00 3 = b.cycleLength.toNat ∧ byteAt bs 0x03 = b.cyclesPerRound ∧
    byteAt bs 0x04 = (match b.timingPort with | .A => 0 | .B => 1) ∧
    byteAt bs 0x05 = (match b.unlocked with | .runLocal => 0 | .holdScheduled => 1) ∧
    numAt bs 0x06 2 = b.linkDelay.toNat ∧ numAt bs 0x08 2 = b.lockWindow.toNat ∧
    numAt bs 0x0A 3 = b.stepThreshold.toNat ∧ numAt bs 0x0D 2 = b.holdoverLimit.toNat ∧
    (∀ p i, (byteAt bs (0x0F + portBit p)).getLsbD i = (b.scheduled.get p).getLsbD i) ∧
    (∀ p (c : Cls), byteAt bs (0x12 + 4 * portBit p + c.val) = (b.limits.get p).get c) ∧
    byteAt bs 0x1E = b.mgmtClass ∧ byteAt bs 0x1F = b.stationCount ∧
    (bs.drop 0x20).take 4 = b.stations.toList ∧
    byteAt bs 0x24 = (match b.unmatched with | .drop => 0 | .forward => 1) ∧
    byteAt bs 0x25 = (match b.uplink with | .A => 0 | .B => 1) ∧ byteAt bs 0x26 = b.node ∧
    byteAt bs 0x27 = (if b.managerPresent then 1 else 0) ∧ byteAt bs 0x28 = b.manager ∧
    (∀ i, (byteAt bs 0x29).getLsbD i = b.noticeKinds.getLsbD i) ∧ byteAt bs 0x2A = b.noticePort ∧
    byteAt bs 0x2B = b.highMark ∧ numAt bs 0x2C 20 = b.spare.toNat) ∧
  (∀ bs : List Byte, streamEncodingOk bs = true ↔
    code [0, 1] (byteAt bs 0x00) ∧ noBitFrom 3 (byteAt bs 0x01) ∧ noBitFrom 4 (byteAt bs 0x02) ∧
    noBitFrom 2 (byteAt bs 0x03) ∧ code [0, 1, 2] (byteAt bs 0x0A) ∧ code [0, 1, 2, 3, 4] (byteAt bs 0x0B) ∧
    code [0, 1, 2, 3] (byteAt bs 0x0C) ∧ code [0, 1, 2] (byteAt bs 0x0D) ∧ code [0, 1] (byteAt bs 0x0F) ∧
    code [0, 1, 2] (byteAt bs 0x14) ∧ code [0, 1] (byteAt bs 0x15)) ∧
  (∀ bs : List Byte, windowEncodingOk bs = true ↔
    code [0, 1] (byteAt bs 0x00) ∧ code [0, 1, 2] (byteAt bs 0x01) ∧ noBitFrom 4 (byteAt bs 0x02) ∧
    noBitFrom 2 (byteAt bs 0x03)) ∧
  (∀ bs : List Byte, baseEncodingOk bs = true ↔
    code [0, 1] (byteAt bs 0x04) ∧ code [0, 1] (byteAt bs 0x05) ∧ code [0, 1] (byteAt bs 0x24) ∧
    code [0, 1] (byteAt bs 0x25) ∧ code [0, 1] (byteAt bs 0x27) ∧ noBitFrom 4 (byteAt bs 0x29) ∧
    ∀ p, noBitFrom 4 (byteAt bs (0x0F + portBit p)))
end

