-- ==== Sys2Proof/Laws/State.lean ====
section
/-! SUPPORT. The containers by port and by class, and the updates of the state's fields. -/

namespace Sys2Proof

@[simp] theorem Trio.get_set_same {α : Type} (t : Trio α) (p : Port) (v : α) : (t.set p v).get p = v := by
  cases p <;> rfl

theorem Trio.get_set {α : Type} (t : Trio α) (p q : Port) (v : α) :
    (t.set p v).get q = if q = p then v else t.get q := by
  cases p <;> cases q <;> rfl

theorem Trio.get_set_other {α : Type} (t : Trio α) {p q : Port} (v : α) (h : q ≠ p) :
    (t.set p v).get q = t.get q := by
  simp [Trio.get_set, h]

@[simp] theorem Trio.get_all {α : Type} (v : α) (p : Port) : (Trio.all v).get p = v := by
  cases p <;> rfl

@[simp] theorem Trio.set_get {α : Type} (t : Trio α) (p : Port) : t.set p (t.get p) = t := by
  cases p <;> rfl

@[simp] theorem Quad.get_set_same {α : Type} (q : Quad α) (c : Cls) (v : α) : (q.set c v).get c = v := by
  fin_cases c <;> rfl

theorem Quad.get_set {α : Type} (q : Quad α) (c d : Cls) (v : α) :
    (q.set c v).get d = if d = c then v else q.get d := by
  fin_cases c <;> fin_cases d <;> rfl

theorem Quad.get_set_other {α : Type} (q : Quad α) {c d : Cls} (v : α) (h : d ≠ c) :
    (q.set c v).get d = q.get d := by
  simp [Quad.get_set, h]

@[simp] theorem Quad.get_all {α : Type} (v : α) (c : Cls) : (Quad.all v).get c = v := by
  fin_cases c <;> rfl

namespace Machine

theorem State.port_modPort (s : State) (p q : Port) (f : PortUnit → PortUnit) :
    (s.modPort p f).port q = if q = p then f (s.port p) else s.port q := by
  simp [State.modPort, State.port, Trio.get_set]

@[simp] theorem State.timer_modTimer (s : State) (f : Timer → Timer) : (s.modTimer f).timer = f s.timer := rfl

@[simp] theorem State.ports_modPort (s : State) (p : Port) (f : PortUnit → PortUnit) : (s.modPort p f).ports = s.ports.set p (f (s.ports.get p)) := rfl

@[simp] theorem State.commit_setCommit (s : State) (c : Option Commit) : (s.setCommit c).gen.commit = c := rfl

@[simp] theorem State.portControl_setPortControl (s : State) (p : Port) (o : Option PortControl) : (s.setPortControl p o).mgmt.portControl = s.mgmt.portControl.set p o := rfl

@[simp] theorem State.conditions_setConditions (s : State) (l : List Condition) : (s.setConditions l).mgmt.conditions = l := rfl

@[simp] theorem State.requests_setRequests (s : State) (l : List Request) : (s.setRequests l).mgmt.requests = l := rfl

@[simp] theorem State.engine_setEngine (s : State) (e : Engine) : (s.setEngine e).mgmt.engine = e := rfl

@[simp] theorem State.drain_setDrain (s : State) (d : Option Drain) : (s.setDrain d).mgmt.drain = d := rfl

@[simp] theorem State.power_setPower (s : State) (w : Power) : (s.setPower w).power = w := rfl

@[simp] theorem State.records_setRecords (s : State) (l : List Record) : (s.setRecords l).retention.records = l := rfl

@[simp] theorem State.overflow_setRecords (s : State) (l : List Record) : (s.setRecords l).retention.overflow = s.retention.overflow := rfl

@[simp] theorem State.streams_mapStreams (s : State) (f : StreamState → StreamState) : (s.mapStreams f).streams = s.streams.map f := rfl

@[simp] theorem State.streams_modStream (s : State) (i : Byte) (f : StreamState → StreamState) : (s.modStream i f).streams = s.streams.modify i.toNat f := rfl

@[simp] theorem State.opportunities_raise (s : State) (p : Port) : (s.raise p).opportunities = s.opportunities.set p true := rfl

@[simp] theorem State.opportunities_lower (s : State) (p : Port) : (s.lower p).opportunities = s.opportunities.set p false := rfl

@[simp] theorem State.opportunities_append (s : State) (p : Port) (c : Cls) (d : Desc) : (s.append p c d).opportunities = s.opportunities.set p true := rfl

@[simp] theorem State.notices_setMark (s : State) (k : NoticeKind) (m : NoticeMark) : (s.setMark k m).mgmt.notices = s.mgmt.notices.set k.place m := rfl

@[simp] theorem State.port_modPort_same (s : State) (p : Port) (f : PortUnit → PortUnit) :
    (s.modPort p f).port p = f (s.port p) := by
  simp [State.port_modPort]

/-- Two changes of one port unit are one change. -/
@[simp] theorem State.modPort_modPort (s : State) (p : Port) (f g : PortUnit → PortUnit) :
    (s.modPort p f).modPort p g = s.modPort p fun u => g (f u) := by
  cases p <;> rfl

/-- Two changes of a port unit that agree on the unit as it stands are the same. -/
theorem State.modPort_congr {s : State} {p : Port} {f g : PortUnit → PortUnit} (h : f (s.port p) = g (s.port p)) :
    s.modPort p f = s.modPort p g := by
  simp only [State.modPort]
  exact congrArg (fun v => { s with ports := s.ports.set p v }) h

/-- Any reading of a port unit that a change leaves alone reads the same on every port after it. -/
theorem State.port_modPort_keeps {α : Type} (g : PortUnit → α) (s : State) (p q : Port) (f : PortUnit → PortUnit)
    (h : ∀ u, g (f u) = g u) : g ((s.modPort p f).port q) = g (s.port q) := by
  rw [State.port_modPort]
  split
  · subst_vars
    exact h _
  · rfl

@[simp] theorem State.modPort_state (s : State) (p q : Port) (f : PortUnit → PortUnit)
    (h : ∀ u, (f u).state = u.state) : ((s.modPort p f).port q).state = (s.port q).state :=
  State.port_modPort_keeps PortUnit.state s p q f h

@[simp] theorem State.modPort_counters (s : State) (p q : Port) (f : PortUnit → PortUnit)
    (h : ∀ u, (f u).counters = u.counters) : ((s.modPort p f).port q).counters = (s.port q).counters :=
  State.port_modPort_keeps PortUnit.counters s p q f h

@[simp] theorem State.modPort_tx (s : State) (p q : Port) (f : PortUnit → PortUnit)
    (h : ∀ u, (f u).tx = u.tx) : ((s.modPort p f).port q).tx = (s.port q).tx :=
  State.port_modPort_keeps PortUnit.tx s p q f h

@[simp] theorem State.modPort_rx (s : State) (p q : Port) (f : PortUnit → PortUnit)
    (h : ∀ u, (f u).rx = u.rx) : ((s.modPort p f).port q).rx = (s.port q).rx :=
  State.port_modPort_keeps PortUnit.rx s p q f h

@[simp] theorem State.modPort_holder (s : State) (p q : Port) (f : PortUnit → PortUnit)
    (h : ∀ u, (f u).holder = u.holder) : ((s.modPort p f).port q).holder = (s.port q).holder :=
  State.port_modPort_keeps PortUnit.holder s p q f h

@[simp] theorem State.modPort_lastCheck (s : State) (p q : Port) (f : PortUnit → PortUnit)
    (h : ∀ u, (f u).lastCheck = u.lastCheck) : ((s.modPort p f).port q).lastCheck = (s.port q).lastCheck :=
  State.port_modPort_keeps PortUnit.lastCheck s p q f h

@[simp] theorem State.modPort_good (s : State) (p q : Port) (f : PortUnit → PortUnit)
    (h : ∀ u, (f u).good = u.good) : ((s.modPort p f).port q).good = (s.port q).good :=
  State.port_modPort_keeps PortUnit.good s p q f h

@[simp] theorem State.modPort_bad (s : State) (p q : Port) (f : PortUnit → PortUnit)
    (h : ∀ u, (f u).bad = u.bad) : ((s.modPort p f).port q).bad = (s.port q).bad :=
  State.port_modPort_keeps PortUnit.bad s p q f h

@[simp] theorem State.modPort_qualCount (s : State) (p q : Port) (f : PortUnit → PortUnit)
    (h : ∀ u, (f u).qualCount = u.qualCount) : ((s.modPort p f).port q).qualCount = (s.port q).qualCount :=
  State.port_modPort_keeps PortUnit.qualCount s p q f h

@[simp] theorem State.modPort_signalGood (s : State) (p q : Port) (f : PortUnit → PortUnit)
    (h : ∀ u, (f u).signalGood = u.signalGood) : ((s.modPort p f).port q).signalGood = (s.port q).signalGood :=
  State.port_modPort_keeps PortUnit.signalGood s p q f h

theorem State.egress_setEgress (s : State) (p q : Port) (c d : Cls) (l : List Desc) :
    (s.setEgress p c l).egress q d = if q = p ∧ d = c then l else s.egress q d := by
  simp only [State.setEgress, State.egress, Trio.get_set]
  by_cases hp : q = p
  · subst hp
    simp only [if_true, Quad.get_set, true_and]
  · simp [hp]

@[simp] theorem State.egress_setEgress_same (s : State) (p : Port) (c : Cls) (l : List Desc) :
    (s.setEgress p c l).egress p c = l := by
  simp [State.egress_setEgress]

theorem State.egress_append (s : State) (p q : Port) (c e : Cls) (d : Desc) :
    (s.append p c d).egress q e = if q = p ∧ e = c then s.egress p c ++ [d] else s.egress q e := by
  have h : (s.append p c d).egress q e = (s.setEgress p c (s.egress p c ++ [d])).egress q e := rfl
  rw [h, State.egress_setEgress]

end Machine

end Sys2Proof
end

