-- ==== Sys2Proof/Laws/Disposals.lean ====
section
/-! SUPPORT. What releasing slots one after another does, and what disposing of copies one after another does: the lemmas
that say it once. -/

namespace Sys2Proof.Machine

open Sys2Proof

/-! ### Releases (R63) -/

/-- One release: the count of its slot falls by one, and the slot joins the free list when that makes it 0. -/
theorem State.releaseSlot_released (s : State) (n : Nat) : s.Released (s.releaseSlot n) [n] := by
  unfold State.Released State.releaseSlot
  rcases h : s.slotCount n with - | - | k
  · refine ⟨rfl, rfl, fun m => ?_, ?_⟩
    · by_cases e : n = m
      · subst e; simp [h]
      · simp [e]
    · simp [freedBy, h]
  all_goals
    refine ⟨rfl, by simp [FrameStore.setCount], fun m => ?_, by simp [freedBy, h, FrameStore.setCount]⟩
    simp only [State.slotCount, FrameStore.setCount, List.getD_eq_getElem?_getD, List.getElem?_set] at h ⊢
    have hn : n < s.store.count.length := by
      by_contra hn
      simp [List.getElem?_eq_none (Nat.le_of_not_lt hn)] at h
    by_cases e : n = m
    · subst e
      simp only [List.getElem?_eq_getElem hn, Option.getD_some] at h
      simp [hn, h]
    · simp [e]

/-- `freedBy` depends only on the counts. -/
theorem freedBy_congr {f g : Nat → Nat} (h : ∀ n, f n = g n) (slots : List Nat) : freedBy f slots = freedBy g slots := by
  rw [funext h]

/-- Releases one after another are the releases of the whole list. -/
theorem State.Released.append {s t u : State} {xs ys : List Nat} (h : s.Released t xs) (h' : t.Released u ys) :
    s.Released u (xs ++ ys) := by
  obtain ⟨h1, h2, h3, h4⟩ := h
  obtain ⟨g1, g2, g3, g4⟩ := h'
  refine ⟨g1.trans h1, g2.trans h2, fun n => ?_, ?_⟩
  · rw [g3, h3, List.count_append, Nat.sub_sub]
  · have key : ∀ (xs : List Nat) (f : Nat → Nat),
        freedBy f (xs ++ ys) = freedBy f xs ++ freedBy (fun n => f n - xs.count n) ys := by
      intro xs
      induction xs with
      | nil => intro f; simp [freedBy]
      | cons x xs ih =>
        intro f
        simp only [List.cons_append, freedBy, ih, List.append_assoc, List.append_cancel_left_eq]
        refine freedBy_congr (fun n => ?_) ys
        by_cases e : n = x
        · subst e; simp; omega
        · have e' : ¬ x = n := fun h => e h.symm
          simp [e, e']
    rw [g4, h4, key, List.append_assoc, freedBy_congr h3]

/-- Releases do not look beside the frame store. -/
theorem State.Released.of_store {s t s' t' : State} {xs : List Nat} (h : s.Released t xs) (hs : s'.store = s.store)
    (ht : t'.store = t.store) : s'.Released t' xs := by
  unfold State.Released State.slotCount at *
  rw [hs, ht]
  exact h

/-- No release at all. -/
theorem State.Released.refl (s : State) : s.Released s [] := ⟨rfl, rfl, by simp, by simp [freedBy]⟩

/-- The slots of a list, released from its head to its tail. -/
theorem State.releaseAll_released {α : Type} (slot : α → Nat) (l : List α) (s : State) :
    s.Released (l.foldl (fun s x => s.releaseSlot (slot x)) s) (l.map slot) := by
  induction l generalizing s with
  | nil => exact State.Released.refl s
  | cons x l ih => exact (s.releaseSlot_released (slot x)).append (ih _)

/-- A release changes the frame store alone. -/
theorem State.releaseSlot_eq (s : State) (n : Nat) : s.releaseSlot n = { s with store := (s.releaseSlot n).store } := by
  unfold State.releaseSlot
  split <;> rfl

/-! ### Disposals (R72) -/

/-- A notice event changes the management state alone. -/
theorem State.noticeEvent_eq (s : State) (k : NoticeKind) :
    s.noticeEvent k = { s with mgmt := (s.noticeEvent k).mgmt } := by
  unfold State.noticeEvent
  split <;> rfl

/-- A notice event reads the active base record and the marks alone. -/
theorem State.noticeEvent_mgmt (s t : State) (k : NoticeKind) (hg : s.gen = t.gen) (hm : s.mgmt = t.mgmt) :
    (s.noticeEvent k).mgmt = (t.noticeEvent k).mgmt := by
  unfold State.noticeEvent State.noticeWanted State.base State.setMark
  rw [hg, hm]
  split <;> simp [hm]

/-- One more and some more are together so many. -/
theorem add_one_add_count (x : W32) (n : Nat) : x + 1#32 + BitVec.ofNat 32 n = x + BitVec.ofNat 32 (n + 1) := by
  rw [BitVec.ofNat_add, BitVec.add_assoc, BitVec.add_comm 1#32]

/-- Dropped counts added to the streams, index by index. -/
theorem mapIdx_dropped_zero (l : List StreamState) :
    (l.mapIdx fun _ (st : StreamState) => { st with counters := { st.counters with
      dropped := st.counters.dropped + BitVec.ofNat 32 0 } }) = l := by
  apply List.ext_getElem <;> simp

/-- One dropped count more, before the others are added. -/
theorem mapIdx_dropped_modify (l : List StreamState) (i : Byte) (f : Nat → Nat) :
    ((l.modify i.toNat fun st => { st with counters := st.counters.incDropped }).mapIdx fun j (st : StreamState) =>
      { st with counters := { st.counters with dropped := st.counters.dropped + BitVec.ofNat 32 (f j) } }) =
    l.mapIdx fun j (st : StreamState) => { st with counters := { st.counters with
      dropped := st.counters.dropped + BitVec.ofNat 32 (f j + if i.toNat = j then 1 else 0) } } := by
  apply List.ext_getElem
  · simp
  · intro j h1 h2
    by_cases e : i.toNat = j
    · simp [e, StreamCounters.incDropped, add_one_add_count]
    · simp [e]

/-- The frame store after a release depends on the frame store alone. -/
theorem State.releaseSlot_store {s t : State} (h : s.store = t.store) (n : Nat) :
    (s.releaseSlot n).store = (t.releaseSlot n).store := by
  unfold State.releaseSlot State.slotCount
  rw [h]
  split <;> simp [h]

/-- A dropped copy counts in its stream and releases its slot. -/
theorem State.dropCopy_eq (s : State) (i : Byte) (n : Nat) : s.dropCopy i n = { s with
    streams := s.streams.modify i.toNat fun st => { st with counters := st.counters.incDropped }
    store := (s.releaseSlot n).store } := by
  unfold State.dropCopy
  rw [State.releaseSlot_eq]
  congr 1
  exact State.releaseSlot_store (s := s.countStream i StreamCounters.incDropped) (t := s) rfl n

/-- A second value for a port takes the place of the first. -/
theorem Trio.set_set {α : Type} (t : Trio α) (p : Port) (v w : α) : (t.set p v).set p w = t.set p w := by
  cases p <;> rfl

/-- The notice marks after a disposal: the rise to the high mark is one event, wherever it comes. -/
theorem State.retain_eq (s : State) (r : Record) : s.retain r = { s with
    retention := ⟨s.retention.records ++ [r], s.retention.overflow⟩
    mgmt := if s.retention.records.length + 1 = s.gen.active.base.highMark.toNat then (s.noticeEvent .retentionHigh).mgmt
      else s.mgmt } := by
  unfold State.retain
  simp only [State.setRecords, State.base, List.length_append, List.length_singleton]
  split
  · rw [State.noticeEvent_eq]
    congr 1
    exact State.noticeEvent_mgmt _ _ _ rfl rfl
  · rfl

/-- Disposals one after another: what the whole list does. -/
theorem State.dispose_disposed (p : Port) (copies : List (Desc × Reason)) (s : State) :
    s.Disposed (copies.foldl (fun s x => State.dispose x.2 p s x.1) s) p copies := by
  induction copies generalizing s with
  | nil =>
    refine ⟨State.Released.refl s, ?_⟩
    have h : ¬ (s.retention.records.length < s.base.highMark.toNat ∧
        s.base.highMark.toNat ≤ s.retention.records.length) := by omega
    have hp : s.ports.set p (s.port p) = s.ports := Trio.set_get _ _
    simp only [List.map_nil, droppedOf, List.countP_nil, List.filterMap_nil, List.take_nil,
      List.append_nil, h, List.length_nil, Nat.zero_sub, mapIdx_dropped_zero, List.foldl_nil, if_false]
    simp [hp]
  | cons x l ih =>
    obtain ⟨d, r⟩ := x
    have ih := ih (State.dispose r p s d)
    simp only [List.foldl_cons]
    generalize List.foldl (fun s x => State.dispose x.2 p s x.1) (State.dispose r p s d) l = u at ih ⊢
    have dropped : ∀ i, d.origin = .stream i → ¬ (d.late = .retain ∧ s.retention.records.length < 32) →
        ∀ o : W32, State.dispose r p s d = { s with
          retention := ⟨s.retention.records, o⟩
          streams := s.streams.modify i.toNat fun st => { st with counters := st.counters.incDropped }
          store := (s.releaseSlot d.slot).store } →
        (o = s.retention.overflow + if d.late = .retain then 1 else 0) →
        s.Disposed u p ((d, r) :: l) := by
      intro i ho hk o ht hoo
      have hs : d.stream? = some i := by simp [Desc.stream?, ho]
      have hk' : ¬ (d.late = .retain ∧ 0 < 32 - s.retention.records.length) := fun h => hk ⟨h.1, by omega⟩
      have hrel := s.releaseSlot_released d.slot
      rw [ht] at ih
      simp only [State.Disposed, State.base, State.port] at ih ⊢
      obtain ⟨hr, hu⟩ := ih
      simp only [List.map_cons, List.filterMap_cons, droppedOf, hs, ho, List.countP_cons, Option.isSome_some,
        true_and, hk', if_false, Option.map_some, reduceCtorEq, decide_false, Nat.add_zero]
      refine ⟨hrel.append (hr.of_store rfl rfl), hu.trans ?_⟩
      congr 1
      · refine (mapIdx_dropped_modify _ i _).trans ?_
        apply List.ext_getElem <;> simp
      · by_cases hl : d.late = .retain
        · have hn : 32 - s.retention.records.length = 0 := by
            by_contra hn
            exact hk ⟨hl, by omega⟩
          simp [hl, hn, hoo, add_one_add_count]
        · simp [hl, hoo]
      · by_cases hl : d.late = .retain
        · have hn : 32 - s.retention.records.length = 0 := by
            by_contra hn
            exact hk ⟨hl, by omega⟩
          simp only [hl, hn, List.take_zero, if_true]
          exact if_congr Iff.rfl (State.noticeEvent_mgmt _ _ _ rfl rfl) rfl
        · simp only [hl, if_false]
          exact if_congr Iff.rfl (State.noticeEvent_mgmt _ _ _ rfl rfl) rfl
    rcases ho : d.origin with i | _ | _
    · have hs : d.stream? = some i := by simp [Desc.stream?, ho]
      by_cases hl : d.late = .retain
      · by_cases hroom : s.retention.records.length < 32
        · have ht : State.dispose r p s d = s.retain (d.toRecord i r p) := by
            simp [State.dispose, ho, hl, State.retentionRoom, hroom, Config.retentionRecords]
          rw [ht, State.retain_eq] at ih
          simp only [State.Disposed, State.base, State.port] at ih ⊢
          obtain ⟨hr, hu⟩ := ih
          have hk : d.late = .retain ∧ 0 < 32 - s.retention.records.length := ⟨hl, by omega⟩
          obtain ⟨k, hk'⟩ : ∃ k, 32 - s.retention.records.length = k + 1 := ⟨31 - s.retention.records.length, by omega⟩
          have hk2 : 32 - (s.retention.records ++ [d.toRecord i r p]).length = k := by simp; omega
          simp only [List.map_cons, List.filterMap_cons, droppedOf, hs, ho, Option.isSome_some, hk, and_self,
            if_true, hk', hk2, Nat.add_sub_cancel, Nat.zero_lt_succ] at hr hu ⊢
          refine ⟨hr.of_store rfl rfl, hu.trans ?_⟩
          congr 1
          · simp
          · by_cases e : s.retention.records.length + 1 = s.gen.active.base.highMark.toNat
            · rw [if_neg (by simp; omega), if_pos e, if_pos (by simp; omega)]
            · simp only [if_neg e]
              refine if_congr (by simp; omega) (State.noticeEvent_mgmt _ _ _ rfl rfl) rfl
        · refine dropped i ho (by omega) (s.retention.overflow + 1) ?_ (by simp [hl])
          have ht : State.dispose r p s d = s.overflow.dropCopy i d.slot := by
            simp [State.dispose, ho, hl, State.retentionRoom, hroom, Config.retentionRecords]
          rw [ht, State.dropCopy_eq]
          congr 1
          exact State.releaseSlot_store (s := s.overflow) (t := s) rfl _
      · refine dropped i ho (by tauto) s.retention.overflow ?_ (by simp [hl])
        have ht : State.dispose r p s d = s.dropCopy i d.slot := by
          rcases hd : d.late <;> simp_all [State.dispose]
        rw [ht, State.dropCopy_eq]
    · have hs : d.stream? = none := by simp [Desc.stream?, ho]
      have ht : State.dispose r p s d = s.releaseSlot d.slot := by simp [State.dispose, ho]
      have hrel := s.releaseSlot_released d.slot
      rw [ht] at ih
      rw [State.releaseSlot_eq] at ih hrel
      simp only [State.Disposed, State.base, State.port] at ih ⊢
      obtain ⟨hr, hu⟩ := ih
      simp only [List.map_cons, List.filterMap_cons, droppedOf, hs, ho, List.countP_cons, Option.isSome_none,
        Bool.false_eq_true, false_and, if_false, Option.map_none, reduceCtorEq, decide_false, Nat.add_zero]
      refine ⟨hrel.append hr, hu.trans ?_⟩
      congr 1
      exact if_congr Iff.rfl (State.noticeEvent_mgmt _ _ _ rfl rfl) rfl
    · have hs : d.stream? = none := by simp [Desc.stream?, ho]
      have ht : State.dispose r p s d = (s.countPort p PortCounters.incMgmtLost).releaseSlot d.slot := by
        simp [State.dispose, ho]
      have hrel := (s.countPort p PortCounters.incMgmtLost).releaseSlot_released d.slot
      rw [ht] at ih
      rw [State.releaseSlot_eq] at ih hrel
      simp only [State.Disposed, State.base, State.port, State.countPort, State.modPort,
        Trio.get_set_same] at ih hrel ⊢
      obtain ⟨hr, hu⟩ := ih
      simp only [List.map_cons, List.filterMap_cons, droppedOf, hs, ho, List.countP_cons, Option.isSome_none,
        Bool.false_eq_true, false_and, if_false, Option.map_none, reduceCtorEq, decide_false, Nat.add_zero]
      refine ⟨(hrel.of_store rfl rfl).append hr, hu.trans ?_⟩
      congr 1
      · simp [Trio.set_set, PortCounters.incMgmtLost, add_one_add_count]
      · exact if_congr Iff.rfl (State.noticeEvent_mgmt _ _ _ rfl rfl) rfl

/-! ### Disposals of whole queues (R12) -/

/-- Replaces all the egress queues. -/
def State.setQueues (s : State) (q : Trio (Quad (List Desc))) : State := { s with queues := q }

@[simp] theorem State.queues_setQueues (s : State) (q : Trio (Quad (List Desc))) : (s.setQueues q).queues = q := rfl

@[simp] theorem State.setQueues_setQueues (s : State) (q r : Trio (Quad (List Desc))) :
    (s.setQueues q).setQueues r = s.setQueues r := rfl

/-- A disposal neither reads nor writes the queues. -/
theorem State.dispose_setQueues (r : Reason) (p : Port) (s : State) (d : Desc) (q : Trio (Quad (List Desc))) :
    State.dispose r p (s.setQueues q) d = (State.dispose r p s d).setQueues q := by
  have hrel : ∀ (s : State) n, (s.setQueues q).releaseSlot n = (s.releaseSlot n).setQueues q := by
    intro s n
    unfold State.releaseSlot
    have : (s.setQueues q).slotCount n = s.slotCount n := rfl
    rw [this]
    split <;> rfl
  unfold State.dispose
  rcases d.origin with i | _ | _
  · rcases d.late
    · exact hrel (s.countStream i StreamCounters.incDropped) d.slot
    · exact hrel (s.countStream i StreamCounters.incDropped) d.slot
    · have hroom : (s.setQueues q).retentionRoom = s.retentionRoom := rfl
      simp only [hroom]
      split
      · rw [State.retain_eq, State.retain_eq]
        simp only [State.setQueues]
        congr 1
        exact if_congr Iff.rfl (State.noticeEvent_mgmt _ _ _ rfl rfl) rfl
      · exact hrel (s.overflow.countStream i StreamCounters.incDropped) d.slot
  · exact hrel s d.slot
  · exact hrel (s.countPort p PortCounters.incMgmtLost) d.slot

/-- Disposals one after another do not look at the queues. -/
theorem State.dispose_foldl_setQueues (r : Reason) (p : Port) (l : List Desc) (s : State)
    (q : Trio (Quad (List Desc))) :
    l.foldl (State.dispose r p) (s.setQueues q) = (l.foldl (State.dispose r p) s).setQueues q := by
  induction l generalizing s with
  | nil => rfl
  | cons d l ih => simp only [List.foldl_cons, State.dispose_setQueues, ih]

/-- Disposals with one reason, as disposals of copies with their reasons. -/
theorem State.dispose_foldl_map (r : Reason) (p : Port) (l : List Desc) (s : State) :
    (l.map fun d => (d, r)).foldl (fun s x => State.dispose x.2 p s x.1) s = l.foldl (State.dispose r p) s := by
  rw [List.foldl_map]

/-- Disposals leave the queues as they are. -/
theorem State.queues_dispose_foldl (r : Reason) (p : Port) (l : List Desc) (s : State) :
    (l.foldl (State.dispose r p) s).queues = s.queues := by
  rw [← State.dispose_foldl_map]
  exact (congrArg State.queues (State.dispose_disposed p _ s).2).trans rfl

/-- The queue of a class leaves, and its copies are disposed of from head to tail. -/
theorem State.disposeQueue_eq (p : Port) (s : State) (c : Cls) :
    State.disposeQueue p s c = ((s.egress p c).foldl (State.dispose .portDown p) s).setQueues
      (s.queues.set p ((s.queues.get p).set c [])) :=
  State.dispose_foldl_setQueues .portDown p (s.egress p c) s _

/-- The four queues of a port, disposed of in class order, are disposed of as one list. -/
theorem State.disposeQueues_eq (s : State) (p : Port) :
    s.disposeQueues p = ((s.egress p 0 ++ s.egress p 1 ++ s.egress p 2 ++ s.egress p 3).map
        fun d => (d, Reason.portDown)).foldl (fun s x => State.dispose x.2 p s x.1)
      (s.setQueues (s.queues.set p ⟨[], [], [], []⟩)) := by
  rw [State.dispose_foldl_map, State.dispose_foldl_setQueues]
  simp only [State.disposeQueues, allClasses, List.foldl_cons, List.foldl_nil, State.disposeQueue_eq,
    State.dispose_foldl_setQueues, State.egress, List.foldl_append, State.queues_setQueues, Trio.get_set_same,
    Trio.set_set, State.setQueues_setQueues]
  rcases s.queues.get p with ⟨q0, q1, q2, q3⟩
  rfl

/-! ### The lateness check of a queue (R88) -/

/-- The late counters of the streams raised, index by index. -/
def State.addLate (s : State) (f : Nat → Nat) : State := { s with
  streams := s.streams.mapIdx fun j (st : StreamState) => { st with counters := { st.counters with
    late := st.counters.late + BitVec.ofNat 32 (f j) } } }

/-- Counting a copy dropped and counting others late are independent. -/
theorem modify_addLate (l : List StreamState) (i : Nat) (f : Nat → Nat) :
    ((l.modify i fun st => { st with counters := st.counters.incDropped }).mapIdx fun j (st : StreamState) =>
      { st with counters := { st.counters with late := st.counters.late + BitVec.ofNat 32 (f j) } }) =
    (l.mapIdx fun j (st : StreamState) => { st with counters := { st.counters with
      late := st.counters.late + BitVec.ofNat 32 (f j) } }).modify i
        fun st => { st with counters := st.counters.incDropped } := by
  apply List.ext_getElem
  · simp
  · intro j h1 h2
    by_cases e : i = j
    · simp [e, StreamCounters.incDropped]
    · simp [e]

/-- A disposal neither reads nor writes a late counter. -/
theorem State.dispose_addLate (r : Reason) (p : Port) (s : State) (d : Desc) (f : Nat → Nat) :
    (State.dispose r p s d).addLate f = State.dispose r p (s.addLate f) d := by
  have hrel : ∀ (s : State) n, (s.releaseSlot n).addLate f = (s.addLate f).releaseSlot n := by
    intro s n
    rw [State.releaseSlot_eq, State.releaseSlot_eq (s.addLate f)]
    have := State.releaseSlot_store (s := s) (t := s.addLate f) rfl n
    simp only [State.addLate] at this ⊢
    rw [this]
  have hdrop : ∀ (s : State) i n, (s.dropCopy i n).addLate f = (s.addLate f).dropCopy i n := by
    intro s i n
    rw [State.dropCopy_eq, State.dropCopy_eq]
    have := State.releaseSlot_store (s := s) (t := s.addLate f) rfl n
    simp only [State.addLate, modify_addLate] at this ⊢
    rw [this]
  unfold State.dispose
  rcases d.origin with i | _ | _
  · rcases d.late
    · exact hdrop s i d.slot
    · exact hdrop s i d.slot
    · have hroom : (s.addLate f).retentionRoom = s.retentionRoom := rfl
      simp only [hroom]
      split
      · rw [State.retain_eq, State.retain_eq]
        simp only [State.addLate]
        congr 1
        exact if_congr Iff.rfl (State.noticeEvent_mgmt _ _ _ rfl rfl) rfl
      · exact hdrop s.overflow i d.slot
  · exact hrel s d.slot
  · exact hrel (s.countPort p PortCounters.incMgmtLost) d.slot

/-- The late copies of a queue are counted, then disposed of. -/
theorem State.takeLate_foldl (p : Port) (l : List Desc) (s : State) :
    l.foldl (State.takeLate p) s =
      (l.map fun d => (d, Reason.late)).foldl (fun s x => State.dispose x.2 p s x.1)
        (s.addLate fun j => l.countP fun d => decide (d.stream?.map BitVec.toNat = some j)) := by
  induction l generalizing s with
  | nil =>
    simp only [List.foldl_nil, List.map_nil, List.countP_nil, State.addLate]
    have : (s.streams.mapIdx fun _ (st : StreamState) => { st with counters := { st.counters with
      late := st.counters.late + BitVec.ofNat 32 0 } }) = s.streams := by apply List.ext_getElem <;> simp
    rw [this]
  | cons d l ih =>
    simp only [List.foldl_cons, List.map_cons, ih]
    congr 1
    have key : ∀ i, d.origin = .stream i → ∀ n : Nat → Nat,
        State.addLate (s.countStream i StreamCounters.incLate) n =
          s.addLate fun j => n j + if i.toNat = j then 1 else 0 := by
      intro i _ n
      simp only [State.addLate, State.countStream, State.modStream]
      congr 1
      apply List.ext_getElem
      · simp
      · intro j h1 h2
        by_cases e : i.toNat = j
        · simp [e, StreamCounters.incLate, add_one_add_count]
        · simp [e]
    unfold State.takeLate
    rcases ho : d.origin with i | _ | _
    · simp only [State.dispose_addLate, key i ho]
      simp [Desc.stream?, ho, List.countP_cons]
    · simp [State.dispose_addLate, Desc.stream?, ho]
    · simp [State.dispose_addLate, Desc.stream?, ho]

end Sys2Proof.Machine
end

