-- ==== Sys2Proof/Laws/Frames.lean ====
section
/-! SUPPORT. The frame of each shared operation: what it leaves unchanged, said once as one rewriting lemma. -/

namespace Sys2Proof.Machine

open Sys2Proof

@[simp] theorem State.writeSlot_frame (s : State) (n : Nat) (bs : List Byte) :
    (s.writeSlot n bs).power = s.power ∧ (s.writeSlot n bs).straps = s.straps ∧
    (s.writeSlot n bs).refCount = s.refCount ∧ (s.writeSlot n bs).pending = s.pending ∧
    (s.writeSlot n bs).timer = s.timer ∧ (s.writeSlot n bs).streams = s.streams ∧
    (s.writeSlot n bs).gates = s.gates ∧ (s.writeSlot n bs).retention = s.retention ∧
    (s.writeSlot n bs).queues = s.queues ∧ (s.writeSlot n bs).opportunities = s.opportunities ∧
    (s.writeSlot n bs).store.count = s.store.count ∧ (s.writeSlot n bs).store.free = s.store.free ∧
    (s.writeSlot n bs).gen = s.gen ∧ (s.writeSlot n bs).mgmt = s.mgmt ∧ (s.writeSlot n bs).ports = s.ports := by
  unfold State.writeSlot
  (repeat' split) <;> simp

@[simp] theorem State.writeSlot_views (s : State) (n : Nat) (bs : List Byte) :
    (∀ x, (s.writeSlot n bs).port x = s.port x) ∧ (∀ x y, (s.writeSlot n bs).egress x y = s.egress x y) ∧
    (s.writeSlot n bs).base = s.base := by
  simp [State.port, State.egress, State.base]

@[simp] theorem State.takeSlot_frame (s : State) :
    s.takeSlot.2.power = s.power ∧ s.takeSlot.2.straps = s.straps ∧ s.takeSlot.2.refCount = s.refCount ∧
    s.takeSlot.2.pending = s.pending ∧ s.takeSlot.2.timer = s.timer ∧ s.takeSlot.2.streams = s.streams ∧
    s.takeSlot.2.gates = s.gates ∧ s.takeSlot.2.retention = s.retention ∧ s.takeSlot.2.queues = s.queues ∧
    s.takeSlot.2.opportunities = s.opportunities ∧ s.takeSlot.2.store.mem = s.store.mem ∧
    s.takeSlot.2.gen = s.gen ∧ s.takeSlot.2.mgmt = s.mgmt ∧ s.takeSlot.2.ports = s.ports := by
  unfold State.takeSlot
  (repeat' split) <;> simp

@[simp] theorem State.takeSlot_views (s : State) :
    (∀ x, s.takeSlot.2.port x = s.port x) ∧ (∀ x y, s.takeSlot.2.egress x y = s.egress x y) ∧
    s.takeSlot.2.base = s.base := by
  simp [State.port, State.egress, State.base]

@[simp] theorem State.releaseSlot_frame (s : State) (n : Nat) :
    (s.releaseSlot n).power = s.power ∧ (s.releaseSlot n).straps = s.straps ∧
    (s.releaseSlot n).refCount = s.refCount ∧ (s.releaseSlot n).pending = s.pending ∧
    (s.releaseSlot n).timer = s.timer ∧ (s.releaseSlot n).streams = s.streams ∧
    (s.releaseSlot n).gates = s.gates ∧ (s.releaseSlot n).retention = s.retention ∧
    (s.releaseSlot n).queues = s.queues ∧ (s.releaseSlot n).opportunities = s.opportunities ∧
    (s.releaseSlot n).store.mem = s.store.mem ∧ (s.releaseSlot n).gen = s.gen ∧
    (s.releaseSlot n).mgmt = s.mgmt ∧ (s.releaseSlot n).ports = s.ports := by
  unfold State.releaseSlot
  split <;> simp [FrameStore.setCount]

@[simp] theorem State.releaseSlot_views (s : State) (n : Nat) :
    (∀ x, (s.releaseSlot n).port x = s.port x) ∧ (∀ x y, (s.releaseSlot n).egress x y = s.egress x y) ∧
    (s.releaseSlot n).base = s.base := by
  simp [State.port, State.egress, State.base]

@[simp] theorem State.releaseSlot?_frame (s : State) (o : Option Nat) :
    (s.releaseSlot? o).power = s.power ∧ (s.releaseSlot? o).straps = s.straps ∧
    (s.releaseSlot? o).refCount = s.refCount ∧ (s.releaseSlot? o).pending = s.pending ∧
    (s.releaseSlot? o).timer = s.timer ∧ (s.releaseSlot? o).streams = s.streams ∧
    (s.releaseSlot? o).gates = s.gates ∧ (s.releaseSlot? o).retention = s.retention ∧
    (s.releaseSlot? o).queues = s.queues ∧ (s.releaseSlot? o).opportunities = s.opportunities ∧
    (s.releaseSlot? o).store.mem = s.store.mem ∧ (s.releaseSlot? o).gen = s.gen ∧
    (s.releaseSlot? o).mgmt = s.mgmt ∧ (s.releaseSlot? o).ports = s.ports := by
  cases o <;> simp [State.releaseSlot?]

@[simp] theorem State.releaseSlot?_views (s : State) (o : Option Nat) :
    (∀ x, (s.releaseSlot? o).port x = s.port x) ∧ (∀ x y, (s.releaseSlot? o).egress x y = s.egress x y) ∧
    (s.releaseSlot? o).base = s.base := by
  simp [State.port, State.egress, State.base]

@[simp] theorem State.settleSlot_frame (s : State) (n h : Nat) :
    (s.settleSlot n h).power = s.power ∧ (s.settleSlot n h).straps = s.straps ∧
    (s.settleSlot n h).refCount = s.refCount ∧ (s.settleSlot n h).pending = s.pending ∧
    (s.settleSlot n h).timer = s.timer ∧ (s.settleSlot n h).streams = s.streams ∧
    (s.settleSlot n h).gates = s.gates ∧ (s.settleSlot n h).retention = s.retention ∧
    (s.settleSlot n h).queues = s.queues ∧ (s.settleSlot n h).opportunities = s.opportunities ∧
    (s.settleSlot n h).store.mem = s.store.mem ∧ (s.settleSlot n h).gen = s.gen ∧
    (s.settleSlot n h).mgmt = s.mgmt ∧ (s.settleSlot n h).ports = s.ports := by
  cases h <;> simp [State.settleSlot, FrameStore.setCount]

@[simp] theorem State.settleSlot_views (s : State) (n h : Nat) :
    (∀ x, (s.settleSlot n h).port x = s.port x) ∧ (∀ x y, (s.settleSlot n h).egress x y = s.egress x y) ∧
    (s.settleSlot n h).base = s.base := by
  simp [State.port, State.egress, State.base]

@[simp] theorem State.modPort_frame (s : State) (p : Port) (f : PortUnit → PortUnit) :
    (s.modPort p f).power = s.power ∧ (s.modPort p f).straps = s.straps ∧
    (s.modPort p f).refCount = s.refCount ∧ (s.modPort p f).pending = s.pending ∧
    (s.modPort p f).timer = s.timer ∧ (s.modPort p f).streams = s.streams ∧ (s.modPort p f).gates = s.gates ∧
    (s.modPort p f).retention = s.retention ∧ (s.modPort p f).queues = s.queues ∧
    (s.modPort p f).opportunities = s.opportunities ∧ (s.modPort p f).store = s.store ∧
    (s.modPort p f).gen = s.gen ∧ (s.modPort p f).mgmt = s.mgmt := by
  simp [State.modPort]

@[simp] theorem State.modPort_views (s : State) (p : Port) (f : PortUnit → PortUnit) :
    (∀ x y, (s.modPort p f).egress x y = s.egress x y) ∧ (s.modPort p f).base = s.base := by
  simp [State.egress, State.base]

@[simp] theorem State.countPort_frame (s : State) (p : Port) (f : PortCounters → PortCounters) :
    (s.countPort p f).power = s.power ∧ (s.countPort p f).straps = s.straps ∧
    (s.countPort p f).refCount = s.refCount ∧ (s.countPort p f).pending = s.pending ∧
    (s.countPort p f).timer = s.timer ∧ (s.countPort p f).streams = s.streams ∧
    (s.countPort p f).gates = s.gates ∧ (s.countPort p f).retention = s.retention ∧
    (s.countPort p f).queues = s.queues ∧ (s.countPort p f).opportunities = s.opportunities ∧
    (s.countPort p f).store = s.store ∧ (s.countPort p f).gen = s.gen ∧ (s.countPort p f).mgmt = s.mgmt ∧
    (∀ x, ((s.countPort p f).port x).state = (s.port x).state) ∧
    (∀ x, ((s.countPort p f).port x).tx = (s.port x).tx) ∧
    (∀ x, ((s.countPort p f).port x).rx = (s.port x).rx) ∧
    (∀ x, ((s.countPort p f).port x).holder = (s.port x).holder) ∧
    (∀ x, ((s.countPort p f).port x).lastCheck = (s.port x).lastCheck) ∧
    (∀ x, ((s.countPort p f).port x).good = (s.port x).good) ∧
    (∀ x, ((s.countPort p f).port x).bad = (s.port x).bad) ∧
    (∀ x, ((s.countPort p f).port x).qualCount = (s.port x).qualCount) ∧
    (∀ x, ((s.countPort p f).port x).signalGood = (s.port x).signalGood) := by
  simp [State.countPort]

@[simp] theorem State.countPort_views (s : State) (p : Port) (f : PortCounters → PortCounters) :
    (∀ x y, (s.countPort p f).egress x y = s.egress x y) ∧ (s.countPort p f).base = s.base := by
  simp [State.egress, State.base]

@[simp] theorem State.emptyHolder_frame (s : State) (p : Port) :
    (s.emptyHolder p).power = s.power ∧ (s.emptyHolder p).straps = s.straps ∧
    (s.emptyHolder p).refCount = s.refCount ∧ (s.emptyHolder p).pending = s.pending ∧
    (s.emptyHolder p).timer = s.timer ∧ (s.emptyHolder p).streams = s.streams ∧
    (s.emptyHolder p).gates = s.gates ∧ (s.emptyHolder p).retention = s.retention ∧
    (s.emptyHolder p).queues = s.queues ∧ (s.emptyHolder p).opportunities = s.opportunities ∧
    (s.emptyHolder p).store = s.store ∧ (s.emptyHolder p).gen = s.gen ∧ (s.emptyHolder p).mgmt = s.mgmt ∧
    (∀ x, ((s.emptyHolder p).port x).state = (s.port x).state) ∧
    (∀ x, ((s.emptyHolder p).port x).counters = (s.port x).counters) ∧
    (∀ x, ((s.emptyHolder p).port x).tx = (s.port x).tx) ∧
    (∀ x, ((s.emptyHolder p).port x).rx = (s.port x).rx) ∧
    (∀ x, ((s.emptyHolder p).port x).lastCheck = (s.port x).lastCheck) ∧
    (∀ x, ((s.emptyHolder p).port x).good = (s.port x).good) ∧
    (∀ x, ((s.emptyHolder p).port x).bad = (s.port x).bad) ∧
    (∀ x, ((s.emptyHolder p).port x).qualCount = (s.port x).qualCount) ∧
    (∀ x, ((s.emptyHolder p).port x).signalGood = (s.port x).signalGood) := by
  simp [State.emptyHolder]

@[simp] theorem State.emptyHolder_views (s : State) (p : Port) :
    (∀ x y, (s.emptyHolder p).egress x y = s.egress x y) ∧ (s.emptyHolder p).base = s.base := by
  simp [State.egress, State.base]

@[simp] theorem State.abandonReception_frame (s : State) (p : Port) :
    (s.abandonReception p).power = s.power ∧ (s.abandonReception p).straps = s.straps ∧
    (s.abandonReception p).refCount = s.refCount ∧ (s.abandonReception p).pending = s.pending ∧
    (s.abandonReception p).timer = s.timer ∧ (s.abandonReception p).streams = s.streams ∧
    (s.abandonReception p).gates = s.gates ∧ (s.abandonReception p).retention = s.retention ∧
    (s.abandonReception p).queues = s.queues ∧ (s.abandonReception p).opportunities = s.opportunities ∧
    (s.abandonReception p).store.mem = s.store.mem ∧ (s.abandonReception p).gen = s.gen ∧
    (s.abandonReception p).mgmt = s.mgmt ∧ (∀ x, ((s.abandonReception p).port x).state = (s.port x).state) ∧
    (∀ x, ((s.abandonReception p).port x).counters = (s.port x).counters) ∧
    (∀ x, ((s.abandonReception p).port x).tx = (s.port x).tx) ∧
    (∀ x, ((s.abandonReception p).port x).holder = (s.port x).holder) ∧
    (∀ x, ((s.abandonReception p).port x).lastCheck = (s.port x).lastCheck) ∧
    (∀ x, ((s.abandonReception p).port x).good = (s.port x).good) ∧
    (∀ x, ((s.abandonReception p).port x).bad = (s.port x).bad) ∧
    (∀ x, ((s.abandonReception p).port x).qualCount = (s.port x).qualCount) ∧
    (∀ x, ((s.abandonReception p).port x).signalGood = (s.port x).signalGood) := by
  unfold State.abandonReception
  (repeat' split) <;> simp

@[simp] theorem State.abandonReception_views (s : State) (p : Port) :
    (∀ x y, (s.abandonReception p).egress x y = s.egress x y) ∧ (s.abandonReception p).base = s.base := by
  simp [State.egress, State.base]

@[simp] theorem State.setEgress_frame (s : State) (p : Port) (c : Cls) (q : List Desc) :
    (s.setEgress p c q).power = s.power ∧ (s.setEgress p c q).straps = s.straps ∧
    (s.setEgress p c q).refCount = s.refCount ∧ (s.setEgress p c q).pending = s.pending ∧
    (s.setEgress p c q).timer = s.timer ∧ (s.setEgress p c q).streams = s.streams ∧
    (s.setEgress p c q).gates = s.gates ∧ (s.setEgress p c q).retention = s.retention ∧
    (s.setEgress p c q).opportunities = s.opportunities ∧ (s.setEgress p c q).store = s.store ∧
    (s.setEgress p c q).gen = s.gen ∧ (s.setEgress p c q).mgmt = s.mgmt ∧
    (s.setEgress p c q).ports = s.ports := by
  simp [State.setEgress]

@[simp] theorem State.setEgress_views (s : State) (p : Port) (c : Cls) (q : List Desc) :
    (∀ x, (s.setEgress p c q).port x = s.port x) ∧ (s.setEgress p c q).base = s.base := by
  simp [State.port, State.base]

@[simp] theorem State.raise_frame (s : State) (p : Port) :
    (s.raise p).power = s.power ∧ (s.raise p).straps = s.straps ∧ (s.raise p).refCount = s.refCount ∧
    (s.raise p).pending = s.pending ∧ (s.raise p).timer = s.timer ∧ (s.raise p).streams = s.streams ∧
    (s.raise p).gates = s.gates ∧ (s.raise p).retention = s.retention ∧ (s.raise p).queues = s.queues ∧
    (s.raise p).store = s.store ∧ (s.raise p).gen = s.gen ∧ (s.raise p).mgmt = s.mgmt ∧
    (s.raise p).ports = s.ports := by
  simp [State.raise]

@[simp] theorem State.raise_views (s : State) (p : Port) :
    (∀ x, (s.raise p).port x = s.port x) ∧ (∀ x y, (s.raise p).egress x y = s.egress x y) ∧
    (s.raise p).base = s.base := by
  simp [State.port, State.egress, State.base]

@[simp] theorem State.lower_frame (s : State) (p : Port) :
    (s.lower p).power = s.power ∧ (s.lower p).straps = s.straps ∧ (s.lower p).refCount = s.refCount ∧
    (s.lower p).pending = s.pending ∧ (s.lower p).timer = s.timer ∧ (s.lower p).streams = s.streams ∧
    (s.lower p).gates = s.gates ∧ (s.lower p).retention = s.retention ∧ (s.lower p).queues = s.queues ∧
    (s.lower p).store = s.store ∧ (s.lower p).gen = s.gen ∧ (s.lower p).mgmt = s.mgmt ∧
    (s.lower p).ports = s.ports := by
  simp [State.lower]

@[simp] theorem State.lower_views (s : State) (p : Port) :
    (∀ x, (s.lower p).port x = s.port x) ∧ (∀ x y, (s.lower p).egress x y = s.egress x y) ∧
    (s.lower p).base = s.base := by
  simp [State.port, State.egress, State.base]

@[simp] theorem State.mapStreams_frame (s : State) (f : StreamState → StreamState) :
    (s.mapStreams f).power = s.power ∧ (s.mapStreams f).straps = s.straps ∧
    (s.mapStreams f).refCount = s.refCount ∧ (s.mapStreams f).pending = s.pending ∧
    (s.mapStreams f).timer = s.timer ∧ (s.mapStreams f).gates = s.gates ∧
    (s.mapStreams f).retention = s.retention ∧ (s.mapStreams f).queues = s.queues ∧
    (s.mapStreams f).opportunities = s.opportunities ∧ (s.mapStreams f).store = s.store ∧
    (s.mapStreams f).gen = s.gen ∧ (s.mapStreams f).mgmt = s.mgmt ∧ (s.mapStreams f).ports = s.ports := by
  simp [State.mapStreams]

@[simp] theorem State.mapStreams_views (s : State) (f : StreamState → StreamState) :
    (∀ x, (s.mapStreams f).port x = s.port x) ∧ (∀ x y, (s.mapStreams f).egress x y = s.egress x y) ∧
    (s.mapStreams f).base = s.base := by
  simp [State.port, State.egress, State.base]

@[simp] theorem State.modTimer_frame (s : State) (f : Timer → Timer) :
    (s.modTimer f).power = s.power ∧ (s.modTimer f).straps = s.straps ∧ (s.modTimer f).refCount = s.refCount ∧
    (s.modTimer f).pending = s.pending ∧ (s.modTimer f).streams = s.streams ∧ (s.modTimer f).gates = s.gates ∧
    (s.modTimer f).retention = s.retention ∧ (s.modTimer f).queues = s.queues ∧
    (s.modTimer f).opportunities = s.opportunities ∧ (s.modTimer f).store = s.store ∧
    (s.modTimer f).gen = s.gen ∧ (s.modTimer f).mgmt = s.mgmt ∧ (s.modTimer f).ports = s.ports := by
  simp [State.modTimer]

@[simp] theorem State.modTimer_views (s : State) (f : Timer → Timer) :
    (∀ x, (s.modTimer f).port x = s.port x) ∧ (∀ x y, (s.modTimer f).egress x y = s.egress x y) ∧
    (s.modTimer f).base = s.base := by
  simp [State.port, State.egress, State.base]

@[simp] theorem State.setCommit_frame (s : State) (c : Option Commit) :
    (s.setCommit c).power = s.power ∧ (s.setCommit c).straps = s.straps ∧
    (s.setCommit c).refCount = s.refCount ∧ (s.setCommit c).pending = s.pending ∧
    (s.setCommit c).timer = s.timer ∧ (s.setCommit c).streams = s.streams ∧ (s.setCommit c).gates = s.gates ∧
    (s.setCommit c).retention = s.retention ∧ (s.setCommit c).queues = s.queues ∧
    (s.setCommit c).opportunities = s.opportunities ∧ (s.setCommit c).store = s.store ∧
    (s.setCommit c).mgmt = s.mgmt ∧ (s.setCommit c).gen.active = s.gen.active ∧
    (s.setCommit c).gen.shadow = s.gen.shadow ∧ (s.setCommit c).gen.number = s.gen.number ∧
    (s.setCommit c).ports = s.ports := by
  simp [State.setCommit]

@[simp] theorem State.setCommit_views (s : State) (c : Option Commit) :
    (∀ x, (s.setCommit c).port x = s.port x) ∧ (∀ x y, (s.setCommit c).egress x y = s.egress x y) ∧
    (s.setCommit c).base = s.base := by
  simp [State.port, State.egress, State.base]

@[simp] theorem State.setPortControl_frame (s : State) (p : Port) (o : Option PortControl) :
    (s.setPortControl p o).power = s.power ∧ (s.setPortControl p o).straps = s.straps ∧
    (s.setPortControl p o).refCount = s.refCount ∧ (s.setPortControl p o).pending = s.pending ∧
    (s.setPortControl p o).timer = s.timer ∧ (s.setPortControl p o).streams = s.streams ∧
    (s.setPortControl p o).gates = s.gates ∧ (s.setPortControl p o).retention = s.retention ∧
    (s.setPortControl p o).queues = s.queues ∧ (s.setPortControl p o).opportunities = s.opportunities ∧
    (s.setPortControl p o).store = s.store ∧ (s.setPortControl p o).gen = s.gen ∧
    (s.setPortControl p o).mgmt.requests = s.mgmt.requests ∧
    (s.setPortControl p o).mgmt.engine = s.mgmt.engine ∧
    (s.setPortControl p o).mgmt.answered = s.mgmt.answered ∧
    (s.setPortControl p o).mgmt.conditions = s.mgmt.conditions ∧
    (s.setPortControl p o).mgmt.notices = s.mgmt.notices ∧
    (s.setPortControl p o).mgmt.noticeSeq = s.mgmt.noticeSeq ∧
    (s.setPortControl p o).mgmt.epoch = s.mgmt.epoch ∧ (s.setPortControl p o).mgmt.drain = s.mgmt.drain ∧
    (s.setPortControl p o).ports = s.ports := by
  simp [State.setPortControl]

@[simp] theorem State.setPortControl_views (s : State) (p : Port) (o : Option PortControl) :
    (∀ x, (s.setPortControl p o).port x = s.port x) ∧
    (∀ x y, (s.setPortControl p o).egress x y = s.egress x y) ∧ (s.setPortControl p o).base = s.base := by
  simp [State.port, State.egress, State.base]

@[simp] theorem State.setConditions_frame (s : State) (l : List Condition) :
    (s.setConditions l).power = s.power ∧ (s.setConditions l).straps = s.straps ∧
    (s.setConditions l).refCount = s.refCount ∧ (s.setConditions l).pending = s.pending ∧
    (s.setConditions l).timer = s.timer ∧ (s.setConditions l).streams = s.streams ∧
    (s.setConditions l).gates = s.gates ∧ (s.setConditions l).retention = s.retention ∧
    (s.setConditions l).queues = s.queues ∧ (s.setConditions l).opportunities = s.opportunities ∧
    (s.setConditions l).store = s.store ∧ (s.setConditions l).gen = s.gen ∧
    (s.setConditions l).mgmt.requests = s.mgmt.requests ∧ (s.setConditions l).mgmt.engine = s.mgmt.engine ∧
    (s.setConditions l).mgmt.answered = s.mgmt.answered ∧
    (s.setConditions l).mgmt.portControl = s.mgmt.portControl ∧
    (s.setConditions l).mgmt.notices = s.mgmt.notices ∧ (s.setConditions l).mgmt.noticeSeq = s.mgmt.noticeSeq ∧
    (s.setConditions l).mgmt.epoch = s.mgmt.epoch ∧ (s.setConditions l).mgmt.drain = s.mgmt.drain ∧
    (s.setConditions l).ports = s.ports := by
  simp [State.setConditions]

@[simp] theorem State.setConditions_views (s : State) (l : List Condition) :
    (∀ x, (s.setConditions l).port x = s.port x) ∧ (∀ x y, (s.setConditions l).egress x y = s.egress x y) ∧
    (s.setConditions l).base = s.base := by
  simp [State.port, State.egress, State.base]

@[simp] theorem State.setRequests_frame (s : State) (l : List Request) :
    (s.setRequests l).power = s.power ∧ (s.setRequests l).straps = s.straps ∧
    (s.setRequests l).refCount = s.refCount ∧ (s.setRequests l).pending = s.pending ∧
    (s.setRequests l).timer = s.timer ∧ (s.setRequests l).streams = s.streams ∧
    (s.setRequests l).gates = s.gates ∧ (s.setRequests l).retention = s.retention ∧
    (s.setRequests l).queues = s.queues ∧ (s.setRequests l).opportunities = s.opportunities ∧
    (s.setRequests l).store = s.store ∧ (s.setRequests l).gen = s.gen ∧
    (s.setRequests l).mgmt.engine = s.mgmt.engine ∧ (s.setRequests l).mgmt.answered = s.mgmt.answered ∧
    (s.setRequests l).mgmt.portControl = s.mgmt.portControl ∧
    (s.setRequests l).mgmt.conditions = s.mgmt.conditions ∧ (s.setRequests l).mgmt.notices = s.mgmt.notices ∧
    (s.setRequests l).mgmt.noticeSeq = s.mgmt.noticeSeq ∧ (s.setRequests l).mgmt.epoch = s.mgmt.epoch ∧
    (s.setRequests l).mgmt.drain = s.mgmt.drain ∧ (s.setRequests l).ports = s.ports := by
  simp [State.setRequests]

@[simp] theorem State.setRequests_views (s : State) (l : List Request) :
    (∀ x, (s.setRequests l).port x = s.port x) ∧ (∀ x y, (s.setRequests l).egress x y = s.egress x y) ∧
    (s.setRequests l).base = s.base := by
  simp [State.port, State.egress, State.base]

@[simp] theorem State.setEngine_frame (s : State) (e : Engine) :
    (s.setEngine e).power = s.power ∧ (s.setEngine e).straps = s.straps ∧
    (s.setEngine e).refCount = s.refCount ∧ (s.setEngine e).pending = s.pending ∧
    (s.setEngine e).timer = s.timer ∧ (s.setEngine e).streams = s.streams ∧ (s.setEngine e).gates = s.gates ∧
    (s.setEngine e).retention = s.retention ∧ (s.setEngine e).queues = s.queues ∧
    (s.setEngine e).opportunities = s.opportunities ∧ (s.setEngine e).store = s.store ∧
    (s.setEngine e).gen = s.gen ∧ (s.setEngine e).mgmt.requests = s.mgmt.requests ∧
    (s.setEngine e).mgmt.answered = s.mgmt.answered ∧ (s.setEngine e).mgmt.portControl = s.mgmt.portControl ∧
    (s.setEngine e).mgmt.conditions = s.mgmt.conditions ∧ (s.setEngine e).mgmt.notices = s.mgmt.notices ∧
    (s.setEngine e).mgmt.noticeSeq = s.mgmt.noticeSeq ∧ (s.setEngine e).mgmt.epoch = s.mgmt.epoch ∧
    (s.setEngine e).mgmt.drain = s.mgmt.drain ∧ (s.setEngine e).ports = s.ports := by
  simp [State.setEngine]

@[simp] theorem State.setEngine_views (s : State) (e : Engine) :
    (∀ x, (s.setEngine e).port x = s.port x) ∧ (∀ x y, (s.setEngine e).egress x y = s.egress x y) ∧
    (s.setEngine e).base = s.base := by
  simp [State.port, State.egress, State.base]

@[simp] theorem State.setDrain_frame (s : State) (d : Option Drain) :
    (s.setDrain d).power = s.power ∧ (s.setDrain d).straps = s.straps ∧ (s.setDrain d).refCount = s.refCount ∧
    (s.setDrain d).pending = s.pending ∧ (s.setDrain d).timer = s.timer ∧ (s.setDrain d).streams = s.streams ∧
    (s.setDrain d).gates = s.gates ∧ (s.setDrain d).retention = s.retention ∧
    (s.setDrain d).queues = s.queues ∧ (s.setDrain d).opportunities = s.opportunities ∧
    (s.setDrain d).store = s.store ∧ (s.setDrain d).gen = s.gen ∧
    (s.setDrain d).mgmt.requests = s.mgmt.requests ∧ (s.setDrain d).mgmt.engine = s.mgmt.engine ∧
    (s.setDrain d).mgmt.answered = s.mgmt.answered ∧ (s.setDrain d).mgmt.portControl = s.mgmt.portControl ∧
    (s.setDrain d).mgmt.conditions = s.mgmt.conditions ∧ (s.setDrain d).mgmt.notices = s.mgmt.notices ∧
    (s.setDrain d).mgmt.noticeSeq = s.mgmt.noticeSeq ∧ (s.setDrain d).mgmt.epoch = s.mgmt.epoch ∧
    (s.setDrain d).ports = s.ports := by
  simp [State.setDrain]

@[simp] theorem State.setDrain_views (s : State) (d : Option Drain) :
    (∀ x, (s.setDrain d).port x = s.port x) ∧ (∀ x y, (s.setDrain d).egress x y = s.egress x y) ∧
    (s.setDrain d).base = s.base := by
  simp [State.port, State.egress, State.base]

@[simp] theorem State.setPower_frame (s : State) (w : Power) :
    (s.setPower w).straps = s.straps ∧ (s.setPower w).refCount = s.refCount ∧
    (s.setPower w).pending = s.pending ∧ (s.setPower w).timer = s.timer ∧ (s.setPower w).streams = s.streams ∧
    (s.setPower w).gates = s.gates ∧ (s.setPower w).retention = s.retention ∧
    (s.setPower w).queues = s.queues ∧ (s.setPower w).opportunities = s.opportunities ∧
    (s.setPower w).store = s.store ∧ (s.setPower w).gen = s.gen ∧ (s.setPower w).mgmt = s.mgmt ∧
    (s.setPower w).ports = s.ports := by
  simp [State.setPower]

@[simp] theorem State.setPower_views (s : State) (w : Power) :
    (∀ x, (s.setPower w).port x = s.port x) ∧ (∀ x y, (s.setPower w).egress x y = s.egress x y) ∧
    (s.setPower w).base = s.base := by
  simp [State.port, State.egress, State.base]

@[simp] theorem State.setRecords_frame (s : State) (l : List Record) :
    (s.setRecords l).power = s.power ∧ (s.setRecords l).straps = s.straps ∧
    (s.setRecords l).refCount = s.refCount ∧ (s.setRecords l).pending = s.pending ∧
    (s.setRecords l).timer = s.timer ∧ (s.setRecords l).streams = s.streams ∧
    (s.setRecords l).gates = s.gates ∧ (s.setRecords l).queues = s.queues ∧
    (s.setRecords l).opportunities = s.opportunities ∧ (s.setRecords l).store = s.store ∧
    (s.setRecords l).gen = s.gen ∧ (s.setRecords l).mgmt = s.mgmt ∧ (s.setRecords l).ports = s.ports := by
  simp [State.setRecords]

@[simp] theorem State.setRecords_views (s : State) (l : List Record) :
    (∀ x, (s.setRecords l).port x = s.port x) ∧ (∀ x y, (s.setRecords l).egress x y = s.egress x y) ∧
    (s.setRecords l).base = s.base := by
  simp [State.port, State.egress, State.base]

@[simp] theorem State.append_frame (s : State) (p : Port) (c : Cls) (d : Desc) :
    (s.append p c d).power = s.power ∧ (s.append p c d).straps = s.straps ∧
    (s.append p c d).refCount = s.refCount ∧ (s.append p c d).pending = s.pending ∧
    (s.append p c d).timer = s.timer ∧ (s.append p c d).streams = s.streams ∧
    (s.append p c d).gates = s.gates ∧ (s.append p c d).retention = s.retention ∧
    (s.append p c d).store = s.store ∧ (s.append p c d).gen = s.gen ∧ (s.append p c d).mgmt = s.mgmt ∧
    (s.append p c d).ports = s.ports := by
  simp [State.append]

@[simp] theorem State.append_views (s : State) (p : Port) (c : Cls) (d : Desc) :
    (∀ x, (s.append p c d).port x = s.port x) ∧ (s.append p c d).base = s.base := by
  simp [State.port, State.base]

@[simp] theorem State.modStream_frame (s : State) (i : Byte) (f : StreamState → StreamState) :
    (s.modStream i f).power = s.power ∧ (s.modStream i f).straps = s.straps ∧
    (s.modStream i f).refCount = s.refCount ∧ (s.modStream i f).pending = s.pending ∧
    (s.modStream i f).timer = s.timer ∧ (s.modStream i f).gates = s.gates ∧
    (s.modStream i f).retention = s.retention ∧ (s.modStream i f).queues = s.queues ∧
    (s.modStream i f).opportunities = s.opportunities ∧ (s.modStream i f).store = s.store ∧
    (s.modStream i f).gen = s.gen ∧ (s.modStream i f).mgmt = s.mgmt ∧ (s.modStream i f).ports = s.ports := by
  simp [State.modStream]

@[simp] theorem State.modStream_views (s : State) (i : Byte) (f : StreamState → StreamState) :
    (∀ x, (s.modStream i f).port x = s.port x) ∧ (∀ x y, (s.modStream i f).egress x y = s.egress x y) ∧
    (s.modStream i f).base = s.base := by
  simp [State.port, State.egress, State.base]

@[simp] theorem State.countStream_frame (s : State) (i : Byte) (f : StreamCounters → StreamCounters) :
    (s.countStream i f).power = s.power ∧ (s.countStream i f).straps = s.straps ∧
    (s.countStream i f).refCount = s.refCount ∧ (s.countStream i f).pending = s.pending ∧
    (s.countStream i f).timer = s.timer ∧ (s.countStream i f).gates = s.gates ∧
    (s.countStream i f).retention = s.retention ∧ (s.countStream i f).queues = s.queues ∧
    (s.countStream i f).opportunities = s.opportunities ∧ (s.countStream i f).store = s.store ∧
    (s.countStream i f).gen = s.gen ∧ (s.countStream i f).mgmt = s.mgmt ∧
    (s.countStream i f).ports = s.ports := by
  simp [State.countStream]

@[simp] theorem State.countStream_views (s : State) (i : Byte) (f : StreamCounters → StreamCounters) :
    (∀ x, (s.countStream i f).port x = s.port x) ∧ (∀ x y, (s.countStream i f).egress x y = s.egress x y) ∧
    (s.countStream i f).base = s.base := by
  simp [State.port, State.egress, State.base]

@[simp] theorem State.setMark_frame (s : State) (k : NoticeKind) (m : NoticeMark) :
    (s.setMark k m).power = s.power ∧ (s.setMark k m).straps = s.straps ∧
    (s.setMark k m).refCount = s.refCount ∧ (s.setMark k m).pending = s.pending ∧
    (s.setMark k m).timer = s.timer ∧ (s.setMark k m).streams = s.streams ∧ (s.setMark k m).gates = s.gates ∧
    (s.setMark k m).retention = s.retention ∧ (s.setMark k m).queues = s.queues ∧
    (s.setMark k m).opportunities = s.opportunities ∧ (s.setMark k m).store = s.store ∧
    (s.setMark k m).gen = s.gen ∧ (s.setMark k m).mgmt.requests = s.mgmt.requests ∧
    (s.setMark k m).mgmt.engine = s.mgmt.engine ∧ (s.setMark k m).mgmt.answered = s.mgmt.answered ∧
    (s.setMark k m).mgmt.portControl = s.mgmt.portControl ∧
    (s.setMark k m).mgmt.conditions = s.mgmt.conditions ∧ (s.setMark k m).mgmt.noticeSeq = s.mgmt.noticeSeq ∧
    (s.setMark k m).mgmt.epoch = s.mgmt.epoch ∧ (s.setMark k m).mgmt.drain = s.mgmt.drain ∧
    (s.setMark k m).ports = s.ports := by
  simp [State.setMark]

@[simp] theorem State.setMark_views (s : State) (k : NoticeKind) (m : NoticeMark) :
    (∀ x, (s.setMark k m).port x = s.port x) ∧ (∀ x y, (s.setMark k m).egress x y = s.egress x y) ∧
    (s.setMark k m).base = s.base := by
  simp [State.port, State.egress, State.base]

@[simp] theorem State.noticeEvent_frame (s : State) (k : NoticeKind) :
    (s.noticeEvent k).power = s.power ∧ (s.noticeEvent k).straps = s.straps ∧
    (s.noticeEvent k).refCount = s.refCount ∧ (s.noticeEvent k).pending = s.pending ∧
    (s.noticeEvent k).timer = s.timer ∧ (s.noticeEvent k).streams = s.streams ∧
    (s.noticeEvent k).gates = s.gates ∧ (s.noticeEvent k).retention = s.retention ∧
    (s.noticeEvent k).queues = s.queues ∧ (s.noticeEvent k).opportunities = s.opportunities ∧
    (s.noticeEvent k).store = s.store ∧ (s.noticeEvent k).gen = s.gen ∧
    (s.noticeEvent k).mgmt.requests = s.mgmt.requests ∧ (s.noticeEvent k).mgmt.engine = s.mgmt.engine ∧
    (s.noticeEvent k).mgmt.answered = s.mgmt.answered ∧
    (s.noticeEvent k).mgmt.portControl = s.mgmt.portControl ∧
    (s.noticeEvent k).mgmt.conditions = s.mgmt.conditions ∧
    (s.noticeEvent k).mgmt.noticeSeq = s.mgmt.noticeSeq ∧ (s.noticeEvent k).mgmt.epoch = s.mgmt.epoch ∧
    (s.noticeEvent k).mgmt.drain = s.mgmt.drain ∧ (s.noticeEvent k).ports = s.ports := by
  unfold State.noticeEvent
  (repeat' split) <;> simp

@[simp] theorem State.noticeEvent_views (s : State) (k : NoticeKind) :
    (∀ x, (s.noticeEvent k).port x = s.port x) ∧ (∀ x y, (s.noticeEvent k).egress x y = s.egress x y) ∧
    (s.noticeEvent k).base = s.base := by
  simp [State.port, State.egress, State.base]

@[simp] theorem State.changePort_frame (s : State) (p : Port) (st : PortState) :
    (s.changePort p st).power = s.power ∧ (s.changePort p st).straps = s.straps ∧
    (s.changePort p st).refCount = s.refCount ∧ (s.changePort p st).pending = s.pending ∧
    (s.changePort p st).timer = s.timer ∧ (s.changePort p st).streams = s.streams ∧
    (s.changePort p st).gates = s.gates ∧ (s.changePort p st).retention = s.retention ∧
    (s.changePort p st).queues = s.queues ∧ (s.changePort p st).opportunities = s.opportunities ∧
    (s.changePort p st).store = s.store ∧ (s.changePort p st).gen = s.gen ∧
    (s.changePort p st).mgmt.requests = s.mgmt.requests ∧ (s.changePort p st).mgmt.engine = s.mgmt.engine ∧
    (s.changePort p st).mgmt.answered = s.mgmt.answered ∧
    (s.changePort p st).mgmt.portControl = s.mgmt.portControl ∧
    (s.changePort p st).mgmt.conditions = s.mgmt.conditions ∧
    (s.changePort p st).mgmt.noticeSeq = s.mgmt.noticeSeq ∧ (s.changePort p st).mgmt.epoch = s.mgmt.epoch ∧
    (s.changePort p st).mgmt.drain = s.mgmt.drain ∧
    (∀ x, ((s.changePort p st).port x).counters = (s.port x).counters) ∧
    (∀ x, ((s.changePort p st).port x).tx = (s.port x).tx) ∧
    (∀ x, ((s.changePort p st).port x).rx = (s.port x).rx) ∧
    (∀ x, ((s.changePort p st).port x).holder = (s.port x).holder) ∧
    (∀ x, ((s.changePort p st).port x).lastCheck = (s.port x).lastCheck) ∧
    (∀ x, ((s.changePort p st).port x).good = (s.port x).good) ∧
    (∀ x, ((s.changePort p st).port x).bad = (s.port x).bad) ∧
    (∀ x, ((s.changePort p st).port x).qualCount = (s.port x).qualCount) ∧
    (∀ x, ((s.changePort p st).port x).signalGood = (s.port x).signalGood) := by
  simp [State.changePort]

@[simp] theorem State.changePort_views (s : State) (p : Port) (st : PortState) :
    (∀ x y, (s.changePort p st).egress x y = s.egress x y) ∧ (s.changePort p st).base = s.base := by
  simp [State.egress, State.base]

@[simp] theorem State.changeSync_frame (s : State) (st : SyncState) :
    (s.changeSync st).power = s.power ∧ (s.changeSync st).straps = s.straps ∧
    (s.changeSync st).refCount = s.refCount ∧ (s.changeSync st).pending = s.pending ∧
    (s.changeSync st).streams = s.streams ∧ (s.changeSync st).gates = s.gates ∧
    (s.changeSync st).retention = s.retention ∧ (s.changeSync st).queues = s.queues ∧
    (s.changeSync st).opportunities = s.opportunities ∧ (s.changeSync st).store = s.store ∧
    (s.changeSync st).gen = s.gen ∧ (s.changeSync st).mgmt.requests = s.mgmt.requests ∧
    (s.changeSync st).mgmt.engine = s.mgmt.engine ∧ (s.changeSync st).mgmt.answered = s.mgmt.answered ∧
    (s.changeSync st).mgmt.portControl = s.mgmt.portControl ∧
    (s.changeSync st).mgmt.conditions = s.mgmt.conditions ∧
    (s.changeSync st).mgmt.noticeSeq = s.mgmt.noticeSeq ∧ (s.changeSync st).mgmt.epoch = s.mgmt.epoch ∧
    (s.changeSync st).mgmt.drain = s.mgmt.drain ∧ (s.changeSync st).timer.cycleCount = s.timer.cycleCount ∧
    (s.changeSync st).timer.index = s.timer.index ∧ (s.changeSync st).timer.round = s.timer.round ∧
    (s.changeSync st).timer.position = s.timer.position ∧
    (s.changeSync st).timer.effLength = s.timer.effLength ∧ (s.changeSync st).timer.trim = s.timer.trim ∧
    (s.changeSync st).timer.residue = s.timer.residue ∧ (s.changeSync st).timer.slew = s.timer.slew ∧
    (s.changeSync st).timer.good = s.timer.good ∧ (s.changeSync st).timer.missed = s.timer.missed ∧
    (s.changeSync st).timer.used = s.timer.used ∧ (s.changeSync st).timer.lastErr = s.timer.lastErr ∧
    (s.changeSync st).ports = s.ports := by
  unfold State.changeSync
  (repeat' split) <;> simp

@[simp] theorem State.changeSync_views (s : State) (st : SyncState) :
    (∀ x, (s.changeSync st).port x = s.port x) ∧ (∀ x y, (s.changeSync st).egress x y = s.egress x y) ∧
    (s.changeSync st).base = s.base := by
  simp [State.port, State.egress, State.base]

@[simp] theorem State.fileCondition_frame (s : State) (r : Byte) (t : W16) (k : Byte) (st : Status) (d : Detail) :
    (s.fileCondition r t k st d).power = s.power ∧ (s.fileCondition r t k st d).straps = s.straps ∧
    (s.fileCondition r t k st d).refCount = s.refCount ∧ (s.fileCondition r t k st d).pending = s.pending ∧
    (s.fileCondition r t k st d).timer = s.timer ∧ (s.fileCondition r t k st d).streams = s.streams ∧
    (s.fileCondition r t k st d).gates = s.gates ∧ (s.fileCondition r t k st d).retention = s.retention ∧
    (s.fileCondition r t k st d).queues = s.queues ∧
    (s.fileCondition r t k st d).opportunities = s.opportunities ∧
    (s.fileCondition r t k st d).store = s.store ∧ (s.fileCondition r t k st d).gen = s.gen ∧
    (s.fileCondition r t k st d).mgmt.requests = s.mgmt.requests ∧
    (s.fileCondition r t k st d).mgmt.engine = s.mgmt.engine ∧
    (s.fileCondition r t k st d).mgmt.answered = s.mgmt.answered ∧
    (s.fileCondition r t k st d).mgmt.portControl = s.mgmt.portControl ∧
    (s.fileCondition r t k st d).mgmt.notices = s.mgmt.notices ∧
    (s.fileCondition r t k st d).mgmt.noticeSeq = s.mgmt.noticeSeq ∧
    (s.fileCondition r t k st d).mgmt.epoch = s.mgmt.epoch ∧
    (s.fileCondition r t k st d).mgmt.drain = s.mgmt.drain ∧ (s.fileCondition r t k st d).ports = s.ports := by
  simp [State.fileCondition]

@[simp] theorem State.fileCondition_views (s : State) (r : Byte) (t : W16) (k : Byte) (st : Status) (d : Detail) :
    (∀ x, (s.fileCondition r t k st d).port x = s.port x) ∧
    (∀ x y, (s.fileCondition r t k st d).egress x y = s.egress x y) ∧
    (s.fileCondition r t k st d).base = s.base := by
  simp [State.port, State.egress, State.base]

@[simp] theorem State.retain_frame (s : State) (r : Record) :
    (s.retain r).power = s.power ∧ (s.retain r).straps = s.straps ∧ (s.retain r).refCount = s.refCount ∧
    (s.retain r).pending = s.pending ∧ (s.retain r).timer = s.timer ∧ (s.retain r).streams = s.streams ∧
    (s.retain r).gates = s.gates ∧ (s.retain r).queues = s.queues ∧
    (s.retain r).opportunities = s.opportunities ∧ (s.retain r).store = s.store ∧ (s.retain r).gen = s.gen ∧
    (s.retain r).mgmt.requests = s.mgmt.requests ∧ (s.retain r).mgmt.engine = s.mgmt.engine ∧
    (s.retain r).mgmt.answered = s.mgmt.answered ∧ (s.retain r).mgmt.portControl = s.mgmt.portControl ∧
    (s.retain r).mgmt.conditions = s.mgmt.conditions ∧ (s.retain r).mgmt.noticeSeq = s.mgmt.noticeSeq ∧
    (s.retain r).mgmt.epoch = s.mgmt.epoch ∧ (s.retain r).mgmt.drain = s.mgmt.drain ∧
    (s.retain r).ports = s.ports := by
  simp only [State.retain]
  split <;> simp

@[simp] theorem State.retain_views (s : State) (r : Record) :
    (∀ x, (s.retain r).port x = s.port x) ∧ (∀ x y, (s.retain r).egress x y = s.egress x y) ∧
    (s.retain r).base = s.base := by
  simp [State.port, State.egress, State.base]

@[simp] theorem State.overflow_frame (s : State) :
    s.overflow.power = s.power ∧ s.overflow.straps = s.straps ∧ s.overflow.refCount = s.refCount ∧
    s.overflow.pending = s.pending ∧ s.overflow.timer = s.timer ∧ s.overflow.streams = s.streams ∧
    s.overflow.gates = s.gates ∧ s.overflow.queues = s.queues ∧ s.overflow.opportunities = s.opportunities ∧
    s.overflow.store = s.store ∧ s.overflow.gen = s.gen ∧ s.overflow.mgmt = s.mgmt ∧
    s.overflow.ports = s.ports := by
  simp [State.overflow]

@[simp] theorem State.overflow_views (s : State) :
    (∀ x, s.overflow.port x = s.port x) ∧ (∀ x y, s.overflow.egress x y = s.egress x y) ∧
    s.overflow.base = s.base := by
  simp [State.port, State.egress, State.base]

@[simp] theorem State.dropCopy_frame (s : State) (i : Byte) (n : Nat) :
    (s.dropCopy i n).power = s.power ∧ (s.dropCopy i n).straps = s.straps ∧
    (s.dropCopy i n).refCount = s.refCount ∧ (s.dropCopy i n).pending = s.pending ∧
    (s.dropCopy i n).timer = s.timer ∧ (s.dropCopy i n).gates = s.gates ∧
    (s.dropCopy i n).retention = s.retention ∧ (s.dropCopy i n).queues = s.queues ∧
    (s.dropCopy i n).opportunities = s.opportunities ∧ (s.dropCopy i n).store.mem = s.store.mem ∧
    (s.dropCopy i n).gen = s.gen ∧ (s.dropCopy i n).mgmt = s.mgmt ∧ (s.dropCopy i n).ports = s.ports := by
  simp [State.dropCopy]

@[simp] theorem State.dropCopy_views (s : State) (i : Byte) (n : Nat) :
    (∀ x, (s.dropCopy i n).port x = s.port x) ∧ (∀ x y, (s.dropCopy i n).egress x y = s.egress x y) ∧
    (s.dropCopy i n).base = s.base := by
  simp [State.port, State.egress, State.base]

@[simp] theorem State.dispose_frame (s : State) (r : Reason) (p : Port) (d : Desc) :
    (State.dispose r p s d).power = s.power ∧ (State.dispose r p s d).straps = s.straps ∧
    (State.dispose r p s d).refCount = s.refCount ∧ (State.dispose r p s d).pending = s.pending ∧
    (State.dispose r p s d).timer = s.timer ∧ (State.dispose r p s d).gates = s.gates ∧
    (State.dispose r p s d).queues = s.queues ∧ (State.dispose r p s d).opportunities = s.opportunities ∧
    (State.dispose r p s d).store.mem = s.store.mem ∧ (State.dispose r p s d).gen = s.gen ∧
    (State.dispose r p s d).mgmt.requests = s.mgmt.requests ∧
    (State.dispose r p s d).mgmt.engine = s.mgmt.engine ∧
    (State.dispose r p s d).mgmt.answered = s.mgmt.answered ∧
    (State.dispose r p s d).mgmt.portControl = s.mgmt.portControl ∧
    (State.dispose r p s d).mgmt.conditions = s.mgmt.conditions ∧
    (State.dispose r p s d).mgmt.noticeSeq = s.mgmt.noticeSeq ∧
    (State.dispose r p s d).mgmt.epoch = s.mgmt.epoch ∧ (State.dispose r p s d).mgmt.drain = s.mgmt.drain ∧
    (∀ x, ((State.dispose r p s d).port x).state = (s.port x).state) ∧
    (∀ x, ((State.dispose r p s d).port x).tx = (s.port x).tx) ∧
    (∀ x, ((State.dispose r p s d).port x).rx = (s.port x).rx) ∧
    (∀ x, ((State.dispose r p s d).port x).holder = (s.port x).holder) ∧
    (∀ x, ((State.dispose r p s d).port x).lastCheck = (s.port x).lastCheck) ∧
    (∀ x, ((State.dispose r p s d).port x).good = (s.port x).good) ∧
    (∀ x, ((State.dispose r p s d).port x).bad = (s.port x).bad) ∧
    (∀ x, ((State.dispose r p s d).port x).qualCount = (s.port x).qualCount) ∧
    (∀ x, ((State.dispose r p s d).port x).signalGood = (s.port x).signalGood) := by
  unfold State.dispose
  (repeat' split) <;> simp

@[simp] theorem State.dispose_views (s : State) (r : Reason) (p : Port) (d : Desc) :
    (∀ x y, (State.dispose r p s d).egress x y = s.egress x y) ∧ (State.dispose r p s d).base = s.base := by
  simp [State.egress, State.base]

@[simp] theorem foldl_dispose_frame (l : List Desc) (s : State) (r : Reason) (p : Port) :
    (l.foldl (State.dispose r p) s).power = s.power ∧ (l.foldl (State.dispose r p) s).straps = s.straps ∧
    (l.foldl (State.dispose r p) s).refCount = s.refCount ∧
    (l.foldl (State.dispose r p) s).pending = s.pending ∧ (l.foldl (State.dispose r p) s).timer = s.timer ∧
    (l.foldl (State.dispose r p) s).gates = s.gates ∧ (l.foldl (State.dispose r p) s).queues = s.queues ∧
    (l.foldl (State.dispose r p) s).opportunities = s.opportunities ∧
    (l.foldl (State.dispose r p) s).store.mem = s.store.mem ∧ (l.foldl (State.dispose r p) s).gen = s.gen ∧
    (l.foldl (State.dispose r p) s).mgmt.requests = s.mgmt.requests ∧
    (l.foldl (State.dispose r p) s).mgmt.engine = s.mgmt.engine ∧
    (l.foldl (State.dispose r p) s).mgmt.answered = s.mgmt.answered ∧
    (l.foldl (State.dispose r p) s).mgmt.portControl = s.mgmt.portControl ∧
    (l.foldl (State.dispose r p) s).mgmt.conditions = s.mgmt.conditions ∧
    (l.foldl (State.dispose r p) s).mgmt.noticeSeq = s.mgmt.noticeSeq ∧
    (l.foldl (State.dispose r p) s).mgmt.epoch = s.mgmt.epoch ∧
    (l.foldl (State.dispose r p) s).mgmt.drain = s.mgmt.drain ∧
    (∀ x, ((l.foldl (State.dispose r p) s).port x).state = (s.port x).state) ∧
    (∀ x, ((l.foldl (State.dispose r p) s).port x).tx = (s.port x).tx) ∧
    (∀ x, ((l.foldl (State.dispose r p) s).port x).rx = (s.port x).rx) ∧
    (∀ x, ((l.foldl (State.dispose r p) s).port x).holder = (s.port x).holder) ∧
    (∀ x, ((l.foldl (State.dispose r p) s).port x).lastCheck = (s.port x).lastCheck) ∧
    (∀ x, ((l.foldl (State.dispose r p) s).port x).good = (s.port x).good) ∧
    (∀ x, ((l.foldl (State.dispose r p) s).port x).bad = (s.port x).bad) ∧
    (∀ x, ((l.foldl (State.dispose r p) s).port x).qualCount = (s.port x).qualCount) ∧
    (∀ x, ((l.foldl (State.dispose r p) s).port x).signalGood = (s.port x).signalGood) := by
  induction l generalizing s with
  | nil => simp
  | cons x l ih => simp [ih]

@[simp] theorem foldl_dispose_views (l : List Desc) (s : State) (r : Reason) (p : Port) :
    (∀ x y, (l.foldl (State.dispose r p) s).egress x y = s.egress x y) ∧
    (l.foldl (State.dispose r p) s).base = s.base := by
  simp [State.egress, State.base]

@[simp] theorem State.disposeQueue_frame (s : State) (p : Port) (c : Cls) :
    (State.disposeQueue p s c).power = s.power ∧ (State.disposeQueue p s c).straps = s.straps ∧
    (State.disposeQueue p s c).refCount = s.refCount ∧ (State.disposeQueue p s c).pending = s.pending ∧
    (State.disposeQueue p s c).timer = s.timer ∧ (State.disposeQueue p s c).gates = s.gates ∧
    (State.disposeQueue p s c).opportunities = s.opportunities ∧
    (State.disposeQueue p s c).store.mem = s.store.mem ∧ (State.disposeQueue p s c).gen = s.gen ∧
    (State.disposeQueue p s c).mgmt.requests = s.mgmt.requests ∧
    (State.disposeQueue p s c).mgmt.engine = s.mgmt.engine ∧
    (State.disposeQueue p s c).mgmt.answered = s.mgmt.answered ∧
    (State.disposeQueue p s c).mgmt.portControl = s.mgmt.portControl ∧
    (State.disposeQueue p s c).mgmt.conditions = s.mgmt.conditions ∧
    (State.disposeQueue p s c).mgmt.noticeSeq = s.mgmt.noticeSeq ∧
    (State.disposeQueue p s c).mgmt.epoch = s.mgmt.epoch ∧
    (State.disposeQueue p s c).mgmt.drain = s.mgmt.drain ∧
    (∀ x, ((State.disposeQueue p s c).port x).state = (s.port x).state) ∧
    (∀ x, ((State.disposeQueue p s c).port x).tx = (s.port x).tx) ∧
    (∀ x, ((State.disposeQueue p s c).port x).rx = (s.port x).rx) ∧
    (∀ x, ((State.disposeQueue p s c).port x).holder = (s.port x).holder) ∧
    (∀ x, ((State.disposeQueue p s c).port x).lastCheck = (s.port x).lastCheck) ∧
    (∀ x, ((State.disposeQueue p s c).port x).good = (s.port x).good) ∧
    (∀ x, ((State.disposeQueue p s c).port x).bad = (s.port x).bad) ∧
    (∀ x, ((State.disposeQueue p s c).port x).qualCount = (s.port x).qualCount) ∧
    (∀ x, ((State.disposeQueue p s c).port x).signalGood = (s.port x).signalGood) := by
  simp [State.disposeQueue]

@[simp] theorem State.disposeQueue_views (s : State) (p : Port) (c : Cls) :
    (State.disposeQueue p s c).base = s.base := by
  simp [State.base]

@[simp] theorem State.disposeQueues_frame (s : State) (p : Port) :
    (s.disposeQueues p).power = s.power ∧ (s.disposeQueues p).straps = s.straps ∧
    (s.disposeQueues p).refCount = s.refCount ∧ (s.disposeQueues p).pending = s.pending ∧
    (s.disposeQueues p).timer = s.timer ∧ (s.disposeQueues p).gates = s.gates ∧
    (s.disposeQueues p).opportunities = s.opportunities ∧ (s.disposeQueues p).store.mem = s.store.mem ∧
    (s.disposeQueues p).gen = s.gen ∧ (s.disposeQueues p).mgmt.requests = s.mgmt.requests ∧
    (s.disposeQueues p).mgmt.engine = s.mgmt.engine ∧ (s.disposeQueues p).mgmt.answered = s.mgmt.answered ∧
    (s.disposeQueues p).mgmt.portControl = s.mgmt.portControl ∧
    (s.disposeQueues p).mgmt.conditions = s.mgmt.conditions ∧
    (s.disposeQueues p).mgmt.noticeSeq = s.mgmt.noticeSeq ∧ (s.disposeQueues p).mgmt.epoch = s.mgmt.epoch ∧
    (s.disposeQueues p).mgmt.drain = s.mgmt.drain ∧
    (∀ x, ((s.disposeQueues p).port x).state = (s.port x).state) ∧
    (∀ x, ((s.disposeQueues p).port x).tx = (s.port x).tx) ∧
    (∀ x, ((s.disposeQueues p).port x).rx = (s.port x).rx) ∧
    (∀ x, ((s.disposeQueues p).port x).holder = (s.port x).holder) ∧
    (∀ x, ((s.disposeQueues p).port x).lastCheck = (s.port x).lastCheck) ∧
    (∀ x, ((s.disposeQueues p).port x).good = (s.port x).good) ∧
    (∀ x, ((s.disposeQueues p).port x).bad = (s.port x).bad) ∧
    (∀ x, ((s.disposeQueues p).port x).qualCount = (s.port x).qualCount) ∧
    (∀ x, ((s.disposeQueues p).port x).signalGood = (s.port x).signalGood) := by
  simp [State.disposeQueues, allClasses]

@[simp] theorem State.disposeQueues_views (s : State) (p : Port) :
    (s.disposeQueues p).base = s.base := by
  simp [State.base]

@[simp] theorem State.modGates_frame (s : State) (p : Port) (f : GateUnit → GateUnit) :
    (s.modGates p f).power = s.power ∧ (s.modGates p f).straps = s.straps ∧
    (s.modGates p f).refCount = s.refCount ∧ (s.modGates p f).pending = s.pending ∧
    (s.modGates p f).timer = s.timer ∧ (s.modGates p f).streams = s.streams ∧
    (s.modGates p f).retention = s.retention ∧ (s.modGates p f).queues = s.queues ∧
    (s.modGates p f).opportunities = s.opportunities ∧ (s.modGates p f).store = s.store ∧
    (s.modGates p f).gen = s.gen ∧ (s.modGates p f).mgmt = s.mgmt ∧ (s.modGates p f).ports = s.ports := by
  simp [State.modGates]

@[simp] theorem State.modGates_views (s : State) (p : Port) (f : GateUnit → GateUnit) :
    (∀ x, (s.modGates p f).port x = s.port x) ∧ (∀ x y, (s.modGates p f).egress x y = s.egress x y) ∧
    (s.modGates p f).base = s.base := by
  simp [State.port, State.egress, State.base]

@[simp] theorem State.openWindows_frame (s : State) (p : Port) (due : WindowEntry → Bool) :
    (s.openWindows p due).power = s.power ∧ (s.openWindows p due).straps = s.straps ∧
    (s.openWindows p due).refCount = s.refCount ∧ (s.openWindows p due).pending = s.pending ∧
    (s.openWindows p due).timer = s.timer ∧ (s.openWindows p due).streams = s.streams ∧
    (s.openWindows p due).retention = s.retention ∧ (s.openWindows p due).queues = s.queues ∧
    (s.openWindows p due).opportunities = s.opportunities ∧ (s.openWindows p due).store = s.store ∧
    (s.openWindows p due).gen = s.gen ∧ (s.openWindows p due).mgmt = s.mgmt ∧
    (s.openWindows p due).ports = s.ports := by
  unfold State.openWindows
  (repeat' split) <;> simp

@[simp] theorem State.openWindows_views (s : State) (p : Port) (due : WindowEntry → Bool) :
    (∀ x, (s.openWindows p due).port x = s.port x) ∧ (∀ x y, (s.openWindows p due).egress x y = s.egress x y) ∧
    (s.openWindows p due).base = s.base := by
  simp [State.port, State.egress, State.base]

@[simp] theorem State.evaluate_frame (m : ReportMode) (s : State) (p : Port) :
    (State.evaluate m s p).power = s.power ∧ (State.evaluate m s p).straps = s.straps ∧
    (State.evaluate m s p).refCount = s.refCount ∧ (State.evaluate m s p).pending = s.pending ∧
    (State.evaluate m s p).timer = s.timer ∧ (State.evaluate m s p).streams = s.streams ∧
    (State.evaluate m s p).retention = s.retention ∧ (State.evaluate m s p).queues = s.queues ∧
    (State.evaluate m s p).store = s.store ∧ (State.evaluate m s p).gen = s.gen ∧
    (State.evaluate m s p).mgmt = s.mgmt ∧ (State.evaluate m s p).ports = s.ports := by
  simp only [State.evaluate]
  split <;> simp

@[simp] theorem State.evaluate_views (m : ReportMode) (s : State) (p : Port) :
    (∀ x, (State.evaluate m s p).port x = s.port x) ∧
    (∀ x y, (State.evaluate m s p).egress x y = s.egress x y) ∧ (State.evaluate m s p).base = s.base := by
  simp [State.port, State.egress, State.base]

@[simp] theorem State.takeLate_frame (s : State) (p : Port) (d : Desc) :
    (State.takeLate p s d).power = s.power ∧ (State.takeLate p s d).straps = s.straps ∧
    (State.takeLate p s d).refCount = s.refCount ∧ (State.takeLate p s d).pending = s.pending ∧
    (State.takeLate p s d).timer = s.timer ∧ (State.takeLate p s d).gates = s.gates ∧
    (State.takeLate p s d).queues = s.queues ∧ (State.takeLate p s d).opportunities = s.opportunities ∧
    (State.takeLate p s d).store.mem = s.store.mem ∧ (State.takeLate p s d).gen = s.gen ∧
    (State.takeLate p s d).mgmt.requests = s.mgmt.requests ∧
    (State.takeLate p s d).mgmt.engine = s.mgmt.engine ∧
    (State.takeLate p s d).mgmt.answered = s.mgmt.answered ∧
    (State.takeLate p s d).mgmt.portControl = s.mgmt.portControl ∧
    (State.takeLate p s d).mgmt.conditions = s.mgmt.conditions ∧
    (State.takeLate p s d).mgmt.noticeSeq = s.mgmt.noticeSeq ∧
    (State.takeLate p s d).mgmt.epoch = s.mgmt.epoch ∧ (State.takeLate p s d).mgmt.drain = s.mgmt.drain ∧
    (∀ x, ((State.takeLate p s d).port x).state = (s.port x).state) ∧
    (∀ x, ((State.takeLate p s d).port x).tx = (s.port x).tx) ∧
    (∀ x, ((State.takeLate p s d).port x).rx = (s.port x).rx) ∧
    (∀ x, ((State.takeLate p s d).port x).holder = (s.port x).holder) ∧
    (∀ x, ((State.takeLate p s d).port x).lastCheck = (s.port x).lastCheck) ∧
    (∀ x, ((State.takeLate p s d).port x).good = (s.port x).good) ∧
    (∀ x, ((State.takeLate p s d).port x).bad = (s.port x).bad) ∧
    (∀ x, ((State.takeLate p s d).port x).qualCount = (s.port x).qualCount) ∧
    (∀ x, ((State.takeLate p s d).port x).signalGood = (s.port x).signalGood) := by
  unfold State.takeLate
  (repeat' split) <;> simp

@[simp] theorem State.takeLate_views (s : State) (p : Port) (d : Desc) :
    (∀ x y, (State.takeLate p s d).egress x y = s.egress x y) ∧ (State.takeLate p s d).base = s.base := by
  simp [State.egress, State.base]

@[simp] theorem foldl_takeLate_frame (l : List Desc) (s : State) (p : Port) :
    (l.foldl (State.takeLate p) s).power = s.power ∧ (l.foldl (State.takeLate p) s).straps = s.straps ∧
    (l.foldl (State.takeLate p) s).refCount = s.refCount ∧ (l.foldl (State.takeLate p) s).pending = s.pending ∧
    (l.foldl (State.takeLate p) s).timer = s.timer ∧ (l.foldl (State.takeLate p) s).gates = s.gates ∧
    (l.foldl (State.takeLate p) s).queues = s.queues ∧
    (l.foldl (State.takeLate p) s).opportunities = s.opportunities ∧
    (l.foldl (State.takeLate p) s).store.mem = s.store.mem ∧ (l.foldl (State.takeLate p) s).gen = s.gen ∧
    (l.foldl (State.takeLate p) s).mgmt.requests = s.mgmt.requests ∧
    (l.foldl (State.takeLate p) s).mgmt.engine = s.mgmt.engine ∧
    (l.foldl (State.takeLate p) s).mgmt.answered = s.mgmt.answered ∧
    (l.foldl (State.takeLate p) s).mgmt.portControl = s.mgmt.portControl ∧
    (l.foldl (State.takeLate p) s).mgmt.conditions = s.mgmt.conditions ∧
    (l.foldl (State.takeLate p) s).mgmt.noticeSeq = s.mgmt.noticeSeq ∧
    (l.foldl (State.takeLate p) s).mgmt.epoch = s.mgmt.epoch ∧
    (l.foldl (State.takeLate p) s).mgmt.drain = s.mgmt.drain ∧
    (∀ x, ((l.foldl (State.takeLate p) s).port x).state = (s.port x).state) ∧
    (∀ x, ((l.foldl (State.takeLate p) s).port x).tx = (s.port x).tx) ∧
    (∀ x, ((l.foldl (State.takeLate p) s).port x).rx = (s.port x).rx) ∧
    (∀ x, ((l.foldl (State.takeLate p) s).port x).holder = (s.port x).holder) ∧
    (∀ x, ((l.foldl (State.takeLate p) s).port x).lastCheck = (s.port x).lastCheck) ∧
    (∀ x, ((l.foldl (State.takeLate p) s).port x).good = (s.port x).good) ∧
    (∀ x, ((l.foldl (State.takeLate p) s).port x).bad = (s.port x).bad) ∧
    (∀ x, ((l.foldl (State.takeLate p) s).port x).qualCount = (s.port x).qualCount) ∧
    (∀ x, ((l.foldl (State.takeLate p) s).port x).signalGood = (s.port x).signalGood) := by
  induction l generalizing s with
  | nil => simp
  | cons x l ih => simp [ih]

@[simp] theorem foldl_takeLate_views (l : List Desc) (s : State) (p : Port) :
    (∀ x y, (l.foldl (State.takeLate p) s).egress x y = s.egress x y) ∧
    (l.foldl (State.takeLate p) s).base = s.base := by
  simp [State.egress, State.base]

@[simp] theorem State.checkQueue_frame (s : State) (p : Port) (c : Cls) :
    (State.checkQueue p s c).power = s.power ∧ (State.checkQueue p s c).straps = s.straps ∧
    (State.checkQueue p s c).refCount = s.refCount ∧ (State.checkQueue p s c).pending = s.pending ∧
    (State.checkQueue p s c).timer = s.timer ∧ (State.checkQueue p s c).gates = s.gates ∧
    (State.checkQueue p s c).store.mem = s.store.mem ∧ (State.checkQueue p s c).gen = s.gen ∧
    (State.checkQueue p s c).mgmt.requests = s.mgmt.requests ∧
    (State.checkQueue p s c).mgmt.engine = s.mgmt.engine ∧
    (State.checkQueue p s c).mgmt.answered = s.mgmt.answered ∧
    (State.checkQueue p s c).mgmt.portControl = s.mgmt.portControl ∧
    (State.checkQueue p s c).mgmt.conditions = s.mgmt.conditions ∧
    (State.checkQueue p s c).mgmt.noticeSeq = s.mgmt.noticeSeq ∧
    (State.checkQueue p s c).mgmt.epoch = s.mgmt.epoch ∧ (State.checkQueue p s c).mgmt.drain = s.mgmt.drain ∧
    (∀ x, ((State.checkQueue p s c).port x).state = (s.port x).state) ∧
    (∀ x, ((State.checkQueue p s c).port x).tx = (s.port x).tx) ∧
    (∀ x, ((State.checkQueue p s c).port x).rx = (s.port x).rx) ∧
    (∀ x, ((State.checkQueue p s c).port x).holder = (s.port x).holder) ∧
    (∀ x, ((State.checkQueue p s c).port x).lastCheck = (s.port x).lastCheck) ∧
    (∀ x, ((State.checkQueue p s c).port x).good = (s.port x).good) ∧
    (∀ x, ((State.checkQueue p s c).port x).bad = (s.port x).bad) ∧
    (∀ x, ((State.checkQueue p s c).port x).qualCount = (s.port x).qualCount) ∧
    (∀ x, ((State.checkQueue p s c).port x).signalGood = (s.port x).signalGood) := by
  simp only [State.checkQueue]
  split <;> simp

@[simp] theorem State.checkQueue_views (s : State) (p : Port) (c : Cls) :
    (State.checkQueue p s c).base = s.base := by
  simp [State.base]

@[simp] theorem foldl_checkQueue_frame (l : List Cls) (s : State) (p : Port) :
    (l.foldl (State.checkQueue p) s).power = s.power ∧ (l.foldl (State.checkQueue p) s).straps = s.straps ∧
    (l.foldl (State.checkQueue p) s).refCount = s.refCount ∧
    (l.foldl (State.checkQueue p) s).pending = s.pending ∧ (l.foldl (State.checkQueue p) s).timer = s.timer ∧
    (l.foldl (State.checkQueue p) s).gates = s.gates ∧
    (l.foldl (State.checkQueue p) s).store.mem = s.store.mem ∧ (l.foldl (State.checkQueue p) s).gen = s.gen ∧
    (l.foldl (State.checkQueue p) s).mgmt.requests = s.mgmt.requests ∧
    (l.foldl (State.checkQueue p) s).mgmt.engine = s.mgmt.engine ∧
    (l.foldl (State.checkQueue p) s).mgmt.answered = s.mgmt.answered ∧
    (l.foldl (State.checkQueue p) s).mgmt.portControl = s.mgmt.portControl ∧
    (l.foldl (State.checkQueue p) s).mgmt.conditions = s.mgmt.conditions ∧
    (l.foldl (State.checkQueue p) s).mgmt.noticeSeq = s.mgmt.noticeSeq ∧
    (l.foldl (State.checkQueue p) s).mgmt.epoch = s.mgmt.epoch ∧
    (l.foldl (State.checkQueue p) s).mgmt.drain = s.mgmt.drain ∧
    (∀ x, ((l.foldl (State.checkQueue p) s).port x).state = (s.port x).state) ∧
    (∀ x, ((l.foldl (State.checkQueue p) s).port x).tx = (s.port x).tx) ∧
    (∀ x, ((l.foldl (State.checkQueue p) s).port x).rx = (s.port x).rx) ∧
    (∀ x, ((l.foldl (State.checkQueue p) s).port x).holder = (s.port x).holder) ∧
    (∀ x, ((l.foldl (State.checkQueue p) s).port x).lastCheck = (s.port x).lastCheck) ∧
    (∀ x, ((l.foldl (State.checkQueue p) s).port x).good = (s.port x).good) ∧
    (∀ x, ((l.foldl (State.checkQueue p) s).port x).bad = (s.port x).bad) ∧
    (∀ x, ((l.foldl (State.checkQueue p) s).port x).qualCount = (s.port x).qualCount) ∧
    (∀ x, ((l.foldl (State.checkQueue p) s).port x).signalGood = (s.port x).signalGood) := by
  induction l generalizing s with
  | nil => simp
  | cons x l ih => simp [ih]

@[simp] theorem foldl_checkQueue_views (l : List Cls) (s : State) (p : Port) :
    (l.foldl (State.checkQueue p) s).base = s.base := by
  simp [State.base]

@[simp] theorem State.latenessCheck_frame (s : State) (p : Port) (ws : List OpenWindow) :
    (s.latenessCheck p ws).power = s.power ∧ (s.latenessCheck p ws).straps = s.straps ∧
    (s.latenessCheck p ws).refCount = s.refCount ∧ (s.latenessCheck p ws).pending = s.pending ∧
    (s.latenessCheck p ws).timer = s.timer ∧ (s.latenessCheck p ws).gates = s.gates ∧
    (s.latenessCheck p ws).store.mem = s.store.mem ∧ (s.latenessCheck p ws).gen = s.gen ∧
    (s.latenessCheck p ws).mgmt.requests = s.mgmt.requests ∧
    (s.latenessCheck p ws).mgmt.engine = s.mgmt.engine ∧
    (s.latenessCheck p ws).mgmt.answered = s.mgmt.answered ∧
    (s.latenessCheck p ws).mgmt.portControl = s.mgmt.portControl ∧
    (s.latenessCheck p ws).mgmt.conditions = s.mgmt.conditions ∧
    (s.latenessCheck p ws).mgmt.noticeSeq = s.mgmt.noticeSeq ∧
    (s.latenessCheck p ws).mgmt.epoch = s.mgmt.epoch ∧ (s.latenessCheck p ws).mgmt.drain = s.mgmt.drain ∧
    (∀ x, ((s.latenessCheck p ws).port x).state = (s.port x).state) ∧
    (∀ x, ((s.latenessCheck p ws).port x).tx = (s.port x).tx) ∧
    (∀ x, ((s.latenessCheck p ws).port x).rx = (s.port x).rx) ∧
    (∀ x, ((s.latenessCheck p ws).port x).holder = (s.port x).holder) ∧
    (∀ x, ((s.latenessCheck p ws).port x).lastCheck = (s.port x).lastCheck) ∧
    (∀ x, ((s.latenessCheck p ws).port x).good = (s.port x).good) ∧
    (∀ x, ((s.latenessCheck p ws).port x).bad = (s.port x).bad) ∧
    (∀ x, ((s.latenessCheck p ws).port x).qualCount = (s.port x).qualCount) ∧
    (∀ x, ((s.latenessCheck p ws).port x).signalGood = (s.port x).signalGood) := by
  simp [State.latenessCheck]

@[simp] theorem State.latenessCheck_views (s : State) (p : Port) (ws : List OpenWindow) :
    (s.latenessCheck p ws).base = s.base := by
  simp [State.base]

@[simp] theorem State.closeAll_frame (b : Bool) (s : State) (p : Port) :
    (State.closeAll b s p).power = s.power ∧ (State.closeAll b s p).straps = s.straps ∧
    (State.closeAll b s p).refCount = s.refCount ∧ (State.closeAll b s p).pending = s.pending ∧
    (State.closeAll b s p).timer = s.timer ∧ (State.closeAll b s p).store.mem = s.store.mem ∧
    (State.closeAll b s p).gen = s.gen ∧ (State.closeAll b s p).mgmt.requests = s.mgmt.requests ∧
    (State.closeAll b s p).mgmt.engine = s.mgmt.engine ∧
    (State.closeAll b s p).mgmt.answered = s.mgmt.answered ∧
    (State.closeAll b s p).mgmt.portControl = s.mgmt.portControl ∧
    (State.closeAll b s p).mgmt.conditions = s.mgmt.conditions ∧
    (State.closeAll b s p).mgmt.noticeSeq = s.mgmt.noticeSeq ∧
    (State.closeAll b s p).mgmt.epoch = s.mgmt.epoch ∧ (State.closeAll b s p).mgmt.drain = s.mgmt.drain ∧
    (∀ x, ((State.closeAll b s p).port x).state = (s.port x).state) ∧
    (∀ x, ((State.closeAll b s p).port x).tx = (s.port x).tx) ∧
    (∀ x, ((State.closeAll b s p).port x).rx = (s.port x).rx) ∧
    (∀ x, ((State.closeAll b s p).port x).holder = (s.port x).holder) ∧
    (∀ x, ((State.closeAll b s p).port x).lastCheck = (s.port x).lastCheck) ∧
    (∀ x, ((State.closeAll b s p).port x).good = (s.port x).good) ∧
    (∀ x, ((State.closeAll b s p).port x).bad = (s.port x).bad) ∧
    (∀ x, ((State.closeAll b s p).port x).qualCount = (s.port x).qualCount) ∧
    (∀ x, ((State.closeAll b s p).port x).signalGood = (s.port x).signalGood) := by
  simp only [State.closeAll]
  split <;> simp

@[simp] theorem State.closeAll_views (b : Bool) (s : State) (p : Port) :
    (State.closeAll b s p).base = s.base := by
  simp [State.base]

@[simp] theorem State.windowCloses_frame (s : State) (p : Port) :
    (s.windowCloses p).power = s.power ∧ (s.windowCloses p).straps = s.straps ∧
    (s.windowCloses p).refCount = s.refCount ∧ (s.windowCloses p).pending = s.pending ∧
    (s.windowCloses p).timer = s.timer ∧ (s.windowCloses p).store.mem = s.store.mem ∧
    (s.windowCloses p).gen = s.gen ∧ (s.windowCloses p).mgmt.requests = s.mgmt.requests ∧
    (s.windowCloses p).mgmt.engine = s.mgmt.engine ∧ (s.windowCloses p).mgmt.answered = s.mgmt.answered ∧
    (s.windowCloses p).mgmt.portControl = s.mgmt.portControl ∧
    (s.windowCloses p).mgmt.conditions = s.mgmt.conditions ∧
    (s.windowCloses p).mgmt.noticeSeq = s.mgmt.noticeSeq ∧ (s.windowCloses p).mgmt.epoch = s.mgmt.epoch ∧
    (s.windowCloses p).mgmt.drain = s.mgmt.drain ∧
    (∀ x, ((s.windowCloses p).port x).state = (s.port x).state) ∧
    (∀ x, ((s.windowCloses p).port x).tx = (s.port x).tx) ∧
    (∀ x, ((s.windowCloses p).port x).rx = (s.port x).rx) ∧
    (∀ x, ((s.windowCloses p).port x).holder = (s.port x).holder) ∧
    (∀ x, ((s.windowCloses p).port x).lastCheck = (s.port x).lastCheck) ∧
    (∀ x, ((s.windowCloses p).port x).good = (s.port x).good) ∧
    (∀ x, ((s.windowCloses p).port x).bad = (s.port x).bad) ∧
    (∀ x, ((s.windowCloses p).port x).qualCount = (s.port x).qualCount) ∧
    (∀ x, ((s.windowCloses p).port x).signalGood = (s.port x).signalGood) := by
  simp [State.windowCloses]

@[simp] theorem State.windowCloses_views (s : State) (p : Port) :
    (s.windowCloses p).base = s.base := by
  simp [State.base]

@[simp] theorem State.windowEvent_frame (s : State) (p : Port) :
    (s.windowEvent p).power = s.power ∧ (s.windowEvent p).straps = s.straps ∧
    (s.windowEvent p).refCount = s.refCount ∧ (s.windowEvent p).pending = s.pending ∧
    (s.windowEvent p).timer = s.timer ∧ (s.windowEvent p).store.mem = s.store.mem ∧
    (s.windowEvent p).gen = s.gen ∧ (s.windowEvent p).mgmt.requests = s.mgmt.requests ∧
    (s.windowEvent p).mgmt.engine = s.mgmt.engine ∧ (s.windowEvent p).mgmt.answered = s.mgmt.answered ∧
    (s.windowEvent p).mgmt.portControl = s.mgmt.portControl ∧
    (s.windowEvent p).mgmt.conditions = s.mgmt.conditions ∧
    (s.windowEvent p).mgmt.noticeSeq = s.mgmt.noticeSeq ∧ (s.windowEvent p).mgmt.epoch = s.mgmt.epoch ∧
    (s.windowEvent p).mgmt.drain = s.mgmt.drain ∧ (∀ x, ((s.windowEvent p).port x).state = (s.port x).state) ∧
    (∀ x, ((s.windowEvent p).port x).tx = (s.port x).tx) ∧
    (∀ x, ((s.windowEvent p).port x).rx = (s.port x).rx) ∧
    (∀ x, ((s.windowEvent p).port x).holder = (s.port x).holder) ∧
    (∀ x, ((s.windowEvent p).port x).lastCheck = (s.port x).lastCheck) ∧
    (∀ x, ((s.windowEvent p).port x).good = (s.port x).good) ∧
    (∀ x, ((s.windowEvent p).port x).bad = (s.port x).bad) ∧
    (∀ x, ((s.windowEvent p).port x).qualCount = (s.port x).qualCount) ∧
    (∀ x, ((s.windowEvent p).port x).signalGood = (s.port x).signalGood) := by
  simp [State.windowEvent]

@[simp] theorem State.windowEvent_views (s : State) (p : Port) :
    (s.windowEvent p).base = s.base := by
  simp [State.base]

@[simp] theorem State.closeEvery_frame (s : State) (b : Bool) :
    (s.closeEvery b).power = s.power ∧ (s.closeEvery b).straps = s.straps ∧
    (s.closeEvery b).refCount = s.refCount ∧ (s.closeEvery b).pending = s.pending ∧
    (s.closeEvery b).timer = s.timer ∧ (s.closeEvery b).store.mem = s.store.mem ∧
    (s.closeEvery b).gen = s.gen ∧ (s.closeEvery b).mgmt.requests = s.mgmt.requests ∧
    (s.closeEvery b).mgmt.engine = s.mgmt.engine ∧ (s.closeEvery b).mgmt.answered = s.mgmt.answered ∧
    (s.closeEvery b).mgmt.portControl = s.mgmt.portControl ∧
    (s.closeEvery b).mgmt.conditions = s.mgmt.conditions ∧ (s.closeEvery b).mgmt.noticeSeq = s.mgmt.noticeSeq ∧
    (s.closeEvery b).mgmt.epoch = s.mgmt.epoch ∧ (s.closeEvery b).mgmt.drain = s.mgmt.drain ∧
    (∀ x, ((s.closeEvery b).port x).state = (s.port x).state) ∧
    (∀ x, ((s.closeEvery b).port x).tx = (s.port x).tx) ∧ (∀ x, ((s.closeEvery b).port x).rx = (s.port x).rx) ∧
    (∀ x, ((s.closeEvery b).port x).holder = (s.port x).holder) ∧
    (∀ x, ((s.closeEvery b).port x).lastCheck = (s.port x).lastCheck) ∧
    (∀ x, ((s.closeEvery b).port x).good = (s.port x).good) ∧
    (∀ x, ((s.closeEvery b).port x).bad = (s.port x).bad) ∧
    (∀ x, ((s.closeEvery b).port x).qualCount = (s.port x).qualCount) ∧
    (∀ x, ((s.closeEvery b).port x).signalGood = (s.port x).signalGood) := by
  simp [State.closeEvery, allPorts]

@[simp] theorem State.closeEvery_views (s : State) (b : Bool) :
    (s.closeEvery b).base = s.base := by
  simp [State.base]

@[simp] theorem State.openEvery_frame (s : State) (due : WindowEntry → Bool) :
    (s.openEvery due).power = s.power ∧ (s.openEvery due).straps = s.straps ∧
    (s.openEvery due).refCount = s.refCount ∧ (s.openEvery due).pending = s.pending ∧
    (s.openEvery due).timer = s.timer ∧ (s.openEvery due).streams = s.streams ∧
    (s.openEvery due).retention = s.retention ∧ (s.openEvery due).queues = s.queues ∧
    (s.openEvery due).opportunities = s.opportunities ∧ (s.openEvery due).store = s.store ∧
    (s.openEvery due).gen = s.gen ∧ (s.openEvery due).mgmt = s.mgmt ∧ (s.openEvery due).ports = s.ports := by
  simp [State.openEvery, allPorts]

@[simp] theorem State.openEvery_views (s : State) (due : WindowEntry → Bool) :
    (∀ x, (s.openEvery due).port x = s.port x) ∧ (∀ x y, (s.openEvery due).egress x y = s.egress x y) ∧
    (s.openEvery due).base = s.base := by
  simp [State.port, State.egress, State.base]

@[simp] theorem State.evaluateEvery_frame (s : State) (m : ReportMode) :
    (s.evaluateEvery m).power = s.power ∧ (s.evaluateEvery m).straps = s.straps ∧
    (s.evaluateEvery m).refCount = s.refCount ∧ (s.evaluateEvery m).pending = s.pending ∧
    (s.evaluateEvery m).timer = s.timer ∧ (s.evaluateEvery m).streams = s.streams ∧
    (s.evaluateEvery m).retention = s.retention ∧ (s.evaluateEvery m).queues = s.queues ∧
    (s.evaluateEvery m).store = s.store ∧ (s.evaluateEvery m).gen = s.gen ∧ (s.evaluateEvery m).mgmt = s.mgmt ∧
    (s.evaluateEvery m).ports = s.ports := by
  simp [State.evaluateEvery, allPorts]

@[simp] theorem State.evaluateEvery_views (s : State) (m : ReportMode) :
    (∀ x, (s.evaluateEvery m).port x = s.port x) ∧ (∀ x y, (s.evaluateEvery m).egress x y = s.egress x y) ∧
    (s.evaluateEvery m).base = s.base := by
  simp [State.port, State.egress, State.base]

@[simp] theorem State.gatesCycleEnd_frame (o : UnlockedPolicy) (s : State) :
    (State.gatesCycleEnd o s).power = s.power ∧ (State.gatesCycleEnd o s).straps = s.straps ∧
    (State.gatesCycleEnd o s).refCount = s.refCount ∧ (State.gatesCycleEnd o s).pending = s.pending ∧
    (State.gatesCycleEnd o s).timer = s.timer ∧ (State.gatesCycleEnd o s).store.mem = s.store.mem ∧
    (State.gatesCycleEnd o s).gen = s.gen ∧ (State.gatesCycleEnd o s).mgmt.requests = s.mgmt.requests ∧
    (State.gatesCycleEnd o s).mgmt.engine = s.mgmt.engine ∧
    (State.gatesCycleEnd o s).mgmt.answered = s.mgmt.answered ∧
    (State.gatesCycleEnd o s).mgmt.portControl = s.mgmt.portControl ∧
    (State.gatesCycleEnd o s).mgmt.conditions = s.mgmt.conditions ∧
    (State.gatesCycleEnd o s).mgmt.noticeSeq = s.mgmt.noticeSeq ∧
    (State.gatesCycleEnd o s).mgmt.epoch = s.mgmt.epoch ∧ (State.gatesCycleEnd o s).mgmt.drain = s.mgmt.drain ∧
    (∀ x, ((State.gatesCycleEnd o s).port x).state = (s.port x).state) ∧
    (∀ x, ((State.gatesCycleEnd o s).port x).tx = (s.port x).tx) ∧
    (∀ x, ((State.gatesCycleEnd o s).port x).rx = (s.port x).rx) ∧
    (∀ x, ((State.gatesCycleEnd o s).port x).holder = (s.port x).holder) ∧
    (∀ x, ((State.gatesCycleEnd o s).port x).lastCheck = (s.port x).lastCheck) ∧
    (∀ x, ((State.gatesCycleEnd o s).port x).good = (s.port x).good) ∧
    (∀ x, ((State.gatesCycleEnd o s).port x).bad = (s.port x).bad) ∧
    (∀ x, ((State.gatesCycleEnd o s).port x).qualCount = (s.port x).qualCount) ∧
    (∀ x, ((State.gatesCycleEnd o s).port x).signalGood = (s.port x).signalGood) := by
  simp [State.gatesCycleEnd]

@[simp] theorem State.gatesCycleEnd_views (o : UnlockedPolicy) (s : State) :
    (State.gatesCycleEnd o s).base = s.base := by
  simp [State.base]

@[simp] theorem State.gatesStep_frame (s : State) :
    s.gatesStep.power = s.power ∧ s.gatesStep.straps = s.straps ∧ s.gatesStep.refCount = s.refCount ∧
    s.gatesStep.pending = s.pending ∧ s.gatesStep.timer = s.timer ∧ s.gatesStep.store.mem = s.store.mem ∧
    s.gatesStep.gen = s.gen ∧ s.gatesStep.mgmt.requests = s.mgmt.requests ∧
    s.gatesStep.mgmt.engine = s.mgmt.engine ∧ s.gatesStep.mgmt.answered = s.mgmt.answered ∧
    s.gatesStep.mgmt.portControl = s.mgmt.portControl ∧ s.gatesStep.mgmt.conditions = s.mgmt.conditions ∧
    s.gatesStep.mgmt.noticeSeq = s.mgmt.noticeSeq ∧ s.gatesStep.mgmt.epoch = s.mgmt.epoch ∧
    s.gatesStep.mgmt.drain = s.mgmt.drain ∧ (∀ x, (s.gatesStep.port x).state = (s.port x).state) ∧
    (∀ x, (s.gatesStep.port x).tx = (s.port x).tx) ∧ (∀ x, (s.gatesStep.port x).rx = (s.port x).rx) ∧
    (∀ x, (s.gatesStep.port x).holder = (s.port x).holder) ∧
    (∀ x, (s.gatesStep.port x).lastCheck = (s.port x).lastCheck) ∧
    (∀ x, (s.gatesStep.port x).good = (s.port x).good) ∧ (∀ x, (s.gatesStep.port x).bad = (s.port x).bad) ∧
    (∀ x, (s.gatesStep.port x).qualCount = (s.port x).qualCount) ∧
    (∀ x, (s.gatesStep.port x).signalGood = (s.port x).signalGood) := by
  simp [State.gatesStep]

@[simp] theorem State.gatesStep_views (s : State) :
    s.gatesStep.base = s.base := by
  simp [State.base]

@[simp] theorem State.gatesSyncEvent_frame (b : Bool) (s : State) :
    (State.gatesSyncEvent b s).power = s.power ∧ (State.gatesSyncEvent b s).straps = s.straps ∧
    (State.gatesSyncEvent b s).refCount = s.refCount ∧ (State.gatesSyncEvent b s).pending = s.pending ∧
    (State.gatesSyncEvent b s).timer = s.timer ∧ (State.gatesSyncEvent b s).store.mem = s.store.mem ∧
    (State.gatesSyncEvent b s).gen = s.gen ∧ (State.gatesSyncEvent b s).mgmt.requests = s.mgmt.requests ∧
    (State.gatesSyncEvent b s).mgmt.engine = s.mgmt.engine ∧
    (State.gatesSyncEvent b s).mgmt.answered = s.mgmt.answered ∧
    (State.gatesSyncEvent b s).mgmt.portControl = s.mgmt.portControl ∧
    (State.gatesSyncEvent b s).mgmt.conditions = s.mgmt.conditions ∧
    (State.gatesSyncEvent b s).mgmt.noticeSeq = s.mgmt.noticeSeq ∧
    (State.gatesSyncEvent b s).mgmt.epoch = s.mgmt.epoch ∧
    (State.gatesSyncEvent b s).mgmt.drain = s.mgmt.drain ∧
    (∀ x, ((State.gatesSyncEvent b s).port x).state = (s.port x).state) ∧
    (∀ x, ((State.gatesSyncEvent b s).port x).tx = (s.port x).tx) ∧
    (∀ x, ((State.gatesSyncEvent b s).port x).rx = (s.port x).rx) ∧
    (∀ x, ((State.gatesSyncEvent b s).port x).holder = (s.port x).holder) ∧
    (∀ x, ((State.gatesSyncEvent b s).port x).lastCheck = (s.port x).lastCheck) ∧
    (∀ x, ((State.gatesSyncEvent b s).port x).good = (s.port x).good) ∧
    (∀ x, ((State.gatesSyncEvent b s).port x).bad = (s.port x).bad) ∧
    (∀ x, ((State.gatesSyncEvent b s).port x).qualCount = (s.port x).qualCount) ∧
    (∀ x, ((State.gatesSyncEvent b s).port x).signalGood = (s.port x).signalGood) := by
  unfold State.gatesSyncEvent
  split <;> simp

@[simp] theorem State.gatesSyncEvent_views (b : Bool) (s : State) :
    (State.gatesSyncEvent b s).base = s.base := by
  simp [State.base]

@[simp] theorem State.startDesc_frame (s : State) (p : Port) (c : Cls) :
    (s.startDesc p c).power = s.power ∧ (s.startDesc p c).straps = s.straps ∧
    (s.startDesc p c).refCount = s.refCount ∧ (s.startDesc p c).pending = s.pending ∧
    (s.startDesc p c).timer = s.timer ∧ (s.startDesc p c).streams = s.streams ∧
    (s.startDesc p c).gates = s.gates ∧ (s.startDesc p c).retention = s.retention ∧
    (s.startDesc p c).opportunities = s.opportunities ∧ (s.startDesc p c).store = s.store ∧
    (s.startDesc p c).gen = s.gen ∧ (s.startDesc p c).mgmt = s.mgmt ∧
    (∀ x, ((s.startDesc p c).port x).state = (s.port x).state) ∧
    (∀ x, ((s.startDesc p c).port x).counters = (s.port x).counters) ∧
    (∀ x, ((s.startDesc p c).port x).rx = (s.port x).rx) ∧
    (∀ x, ((s.startDesc p c).port x).holder = (s.port x).holder) ∧
    (∀ x, ((s.startDesc p c).port x).lastCheck = (s.port x).lastCheck) ∧
    (∀ x, ((s.startDesc p c).port x).good = (s.port x).good) ∧
    (∀ x, ((s.startDesc p c).port x).bad = (s.port x).bad) ∧
    (∀ x, ((s.startDesc p c).port x).qualCount = (s.port x).qualCount) ∧
    (∀ x, ((s.startDesc p c).port x).signalGood = (s.port x).signalGood) := by
  unfold State.startDesc
  (repeat' split) <;> simp

@[simp] theorem State.startDesc_views (s : State) (p : Port) (c : Cls) :
    (s.startDesc p c).base = s.base := by
  simp [State.base]

@[simp] theorem State.startSync_frame (s : State) (p : Port) :
    (s.startSync p).power = s.power ∧ (s.startSync p).straps = s.straps ∧
    (s.startSync p).refCount = s.refCount ∧ (s.startSync p).pending = s.pending ∧
    (s.startSync p).timer = s.timer ∧ (s.startSync p).streams = s.streams ∧ (s.startSync p).gates = s.gates ∧
    (s.startSync p).retention = s.retention ∧ (s.startSync p).queues = s.queues ∧
    (s.startSync p).opportunities = s.opportunities ∧ (s.startSync p).store = s.store ∧
    (s.startSync p).gen = s.gen ∧ (s.startSync p).mgmt = s.mgmt ∧
    (∀ x, ((s.startSync p).port x).state = (s.port x).state) ∧
    (∀ x, ((s.startSync p).port x).counters = (s.port x).counters) ∧
    (∀ x, ((s.startSync p).port x).rx = (s.port x).rx) ∧
    (∀ x, ((s.startSync p).port x).lastCheck = (s.port x).lastCheck) ∧
    (∀ x, ((s.startSync p).port x).good = (s.port x).good) ∧
    (∀ x, ((s.startSync p).port x).bad = (s.port x).bad) ∧
    (∀ x, ((s.startSync p).port x).qualCount = (s.port x).qualCount) ∧
    (∀ x, ((s.startSync p).port x).signalGood = (s.port x).signalGood) := by
  unfold State.startSync
  (repeat' split) <;> simp

@[simp] theorem State.startSync_views (s : State) (p : Port) :
    (∀ x y, (s.startSync p).egress x y = s.egress x y) ∧ (s.startSync p).base = s.base := by
  simp [State.egress, State.base]

@[simp] theorem State.arbitrate_frame (s : State) (p : Port) :
    (s.arbitrate p).power = s.power ∧ (s.arbitrate p).straps = s.straps ∧
    (s.arbitrate p).refCount = s.refCount ∧ (s.arbitrate p).pending = s.pending ∧
    (s.arbitrate p).timer = s.timer ∧ (s.arbitrate p).streams = s.streams ∧ (s.arbitrate p).gates = s.gates ∧
    (s.arbitrate p).retention = s.retention ∧ (s.arbitrate p).opportunities = s.opportunities ∧
    (s.arbitrate p).store = s.store ∧ (s.arbitrate p).gen = s.gen ∧ (s.arbitrate p).mgmt = s.mgmt ∧
    (∀ x, ((s.arbitrate p).port x).state = (s.port x).state) ∧
    (∀ x, ((s.arbitrate p).port x).counters = (s.port x).counters) ∧
    (∀ x, ((s.arbitrate p).port x).rx = (s.port x).rx) ∧
    (∀ x, ((s.arbitrate p).port x).lastCheck = (s.port x).lastCheck) ∧
    (∀ x, ((s.arbitrate p).port x).good = (s.port x).good) ∧
    (∀ x, ((s.arbitrate p).port x).bad = (s.port x).bad) ∧
    (∀ x, ((s.arbitrate p).port x).qualCount = (s.port x).qualCount) ∧
    (∀ x, ((s.arbitrate p).port x).signalGood = (s.port x).signalGood) := by
  unfold State.arbitrate
  (repeat' split) <;> simp

@[simp] theorem State.arbitrate_views (s : State) (p : Port) :
    (s.arbitrate p).base = s.base := by
  simp [State.base]

@[simp] theorem State.takeOpportunity_frame (s : State) (p : Port) :
    (s.takeOpportunity p).power = s.power ∧ (s.takeOpportunity p).straps = s.straps ∧
    (s.takeOpportunity p).refCount = s.refCount ∧ (s.takeOpportunity p).pending = s.pending ∧
    (s.takeOpportunity p).timer = s.timer ∧ (s.takeOpportunity p).streams = s.streams ∧
    (s.takeOpportunity p).gates = s.gates ∧ (s.takeOpportunity p).retention = s.retention ∧
    (s.takeOpportunity p).store = s.store ∧ (s.takeOpportunity p).gen = s.gen ∧
    (s.takeOpportunity p).mgmt = s.mgmt ∧ (∀ x, ((s.takeOpportunity p).port x).state = (s.port x).state) ∧
    (∀ x, ((s.takeOpportunity p).port x).counters = (s.port x).counters) ∧
    (∀ x, ((s.takeOpportunity p).port x).rx = (s.port x).rx) ∧
    (∀ x, ((s.takeOpportunity p).port x).lastCheck = (s.port x).lastCheck) ∧
    (∀ x, ((s.takeOpportunity p).port x).good = (s.port x).good) ∧
    (∀ x, ((s.takeOpportunity p).port x).bad = (s.port x).bad) ∧
    (∀ x, ((s.takeOpportunity p).port x).qualCount = (s.port x).qualCount) ∧
    (∀ x, ((s.takeOpportunity p).port x).signalGood = (s.port x).signalGood) := by
  unfold State.takeOpportunity
  (repeat' split) <;> simp

@[simp] theorem State.takeOpportunity_views (s : State) (p : Port) :
    (s.takeOpportunity p).base = s.base := by
  simp [State.base]

@[simp] theorem State.settle_frame (s : State) :
    s.settle.power = s.power ∧ s.settle.straps = s.straps ∧ s.settle.refCount = s.refCount ∧
    s.settle.pending = s.pending ∧ s.settle.timer = s.timer ∧ s.settle.streams = s.streams ∧
    s.settle.gates = s.gates ∧ s.settle.retention = s.retention ∧ s.settle.store = s.store ∧
    s.settle.gen = s.gen ∧ s.settle.mgmt = s.mgmt ∧ (∀ x, (s.settle.port x).state = (s.port x).state) ∧
    (∀ x, (s.settle.port x).counters = (s.port x).counters) ∧ (∀ x, (s.settle.port x).rx = (s.port x).rx) ∧
    (∀ x, (s.settle.port x).lastCheck = (s.port x).lastCheck) ∧
    (∀ x, (s.settle.port x).good = (s.port x).good) ∧ (∀ x, (s.settle.port x).bad = (s.port x).bad) ∧
    (∀ x, (s.settle.port x).qualCount = (s.port x).qualCount) ∧
    (∀ x, (s.settle.port x).signalGood = (s.port x).signalGood) := by
  simp [State.settle, allPorts]

@[simp] theorem State.settle_views (s : State) :
    s.settle.base = s.base := by
  simp [State.base]

@[simp] theorem State.appendReply_frame (s : State) (p : Port) (n len : Nat) :
    (s.appendReply p n len).power = s.power ∧ (s.appendReply p n len).straps = s.straps ∧
    (s.appendReply p n len).refCount = s.refCount ∧ (s.appendReply p n len).pending = s.pending ∧
    (s.appendReply p n len).timer = s.timer ∧ (s.appendReply p n len).streams = s.streams ∧
    (s.appendReply p n len).gates = s.gates ∧ (s.appendReply p n len).retention = s.retention ∧
    (s.appendReply p n len).store.mem = s.store.mem ∧ (s.appendReply p n len).gen = s.gen ∧
    (s.appendReply p n len).mgmt = s.mgmt ∧ (∀ x, ((s.appendReply p n len).port x).state = (s.port x).state) ∧
    (∀ x, ((s.appendReply p n len).port x).tx = (s.port x).tx) ∧
    (∀ x, ((s.appendReply p n len).port x).rx = (s.port x).rx) ∧
    (∀ x, ((s.appendReply p n len).port x).holder = (s.port x).holder) ∧
    (∀ x, ((s.appendReply p n len).port x).lastCheck = (s.port x).lastCheck) ∧
    (∀ x, ((s.appendReply p n len).port x).good = (s.port x).good) ∧
    (∀ x, ((s.appendReply p n len).port x).bad = (s.port x).bad) ∧
    (∀ x, ((s.appendReply p n len).port x).qualCount = (s.port x).qualCount) ∧
    (∀ x, ((s.appendReply p n len).port x).signalGood = (s.port x).signalGood) := by
  unfold State.appendReply
  (repeat' split) <;> simp

@[simp] theorem State.appendReply_views (s : State) (p : Port) (n len : Nat) :
    (s.appendReply p n len).base = s.base := by
  simp [State.base]

@[simp] theorem State.buildReply_frame (s : State) (n : Nat) (r : Reply) :
    (s.buildReply n r).power = s.power ∧ (s.buildReply n r).straps = s.straps ∧
    (s.buildReply n r).refCount = s.refCount ∧ (s.buildReply n r).pending = s.pending ∧
    (s.buildReply n r).timer = s.timer ∧ (s.buildReply n r).streams = s.streams ∧
    (s.buildReply n r).gates = s.gates ∧ (s.buildReply n r).retention = s.retention ∧
    (s.buildReply n r).queues = s.queues ∧ (s.buildReply n r).opportunities = s.opportunities ∧
    (s.buildReply n r).store.count = s.store.count ∧ (s.buildReply n r).store.free = s.store.free ∧
    (s.buildReply n r).gen = s.gen ∧ (s.buildReply n r).mgmt = s.mgmt ∧ (s.buildReply n r).ports = s.ports := by
  simp [State.buildReply]

@[simp] theorem State.buildReply_views (s : State) (n : Nat) (r : Reply) :
    (∀ x, (s.buildReply n r).port x = s.port x) ∧ (∀ x y, (s.buildReply n r).egress x y = s.egress x y) ∧
    (s.buildReply n r).base = s.base := by
  simp [State.port, State.egress, State.base]

@[simp] theorem State.sendReply_frame (s : State) (p : Port) (n : Nat) (r : Reply) :
    (s.sendReply p n r).power = s.power ∧ (s.sendReply p n r).straps = s.straps ∧
    (s.sendReply p n r).refCount = s.refCount ∧ (s.sendReply p n r).pending = s.pending ∧
    (s.sendReply p n r).timer = s.timer ∧ (s.sendReply p n r).streams = s.streams ∧
    (s.sendReply p n r).gates = s.gates ∧ (s.sendReply p n r).retention = s.retention ∧
    (s.sendReply p n r).gen = s.gen ∧ (s.sendReply p n r).mgmt = s.mgmt ∧
    (∀ x, ((s.sendReply p n r).port x).state = (s.port x).state) ∧
    (∀ x, ((s.sendReply p n r).port x).tx = (s.port x).tx) ∧
    (∀ x, ((s.sendReply p n r).port x).rx = (s.port x).rx) ∧
    (∀ x, ((s.sendReply p n r).port x).holder = (s.port x).holder) ∧
    (∀ x, ((s.sendReply p n r).port x).lastCheck = (s.port x).lastCheck) ∧
    (∀ x, ((s.sendReply p n r).port x).good = (s.port x).good) ∧
    (∀ x, ((s.sendReply p n r).port x).bad = (s.port x).bad) ∧
    (∀ x, ((s.sendReply p n r).port x).qualCount = (s.port x).qualCount) ∧
    (∀ x, ((s.sendReply p n r).port x).signalGood = (s.port x).signalGood) := by
  simp [State.sendReply]

@[simp] theorem State.sendReply_views (s : State) (p : Port) (n : Nat) (r : Reply) :
    (s.sendReply p n r).base = s.base := by
  simp [State.base]

@[simp] theorem State.recordAnswer_frame (s : State) (r : Byte) (t : W16) (k : Byte) (st : Status) :
    (s.recordAnswer r t k st).power = s.power ∧ (s.recordAnswer r t k st).straps = s.straps ∧
    (s.recordAnswer r t k st).refCount = s.refCount ∧ (s.recordAnswer r t k st).pending = s.pending ∧
    (s.recordAnswer r t k st).timer = s.timer ∧ (s.recordAnswer r t k st).streams = s.streams ∧
    (s.recordAnswer r t k st).gates = s.gates ∧ (s.recordAnswer r t k st).retention = s.retention ∧
    (s.recordAnswer r t k st).queues = s.queues ∧ (s.recordAnswer r t k st).opportunities = s.opportunities ∧
    (s.recordAnswer r t k st).store = s.store ∧ (s.recordAnswer r t k st).gen = s.gen ∧
    (s.recordAnswer r t k st).mgmt.requests = s.mgmt.requests ∧
    (s.recordAnswer r t k st).mgmt.engine = s.mgmt.engine ∧
    (s.recordAnswer r t k st).mgmt.portControl = s.mgmt.portControl ∧
    (s.recordAnswer r t k st).mgmt.conditions = s.mgmt.conditions ∧
    (s.recordAnswer r t k st).mgmt.notices = s.mgmt.notices ∧
    (s.recordAnswer r t k st).mgmt.noticeSeq = s.mgmt.noticeSeq ∧
    (s.recordAnswer r t k st).mgmt.epoch = s.mgmt.epoch ∧ (s.recordAnswer r t k st).mgmt.drain = s.mgmt.drain ∧
    (s.recordAnswer r t k st).ports = s.ports := by
  simp [State.recordAnswer]

@[simp] theorem State.recordAnswer_views (s : State) (r : Byte) (t : W16) (k : Byte) (st : Status) :
    (∀ x, (s.recordAnswer r t k st).port x = s.port x) ∧
    (∀ x y, (s.recordAnswer r t k st).egress x y = s.egress x y) ∧ (s.recordAnswer r t k st).base = s.base := by
  simp [State.port, State.egress, State.base]

@[simp] theorem State.engineReply_frame (s : State) (q : Request) (r : Reply) :
    (s.engineReply q r).power = s.power ∧ (s.engineReply q r).straps = s.straps ∧
    (s.engineReply q r).refCount = s.refCount ∧ (s.engineReply q r).pending = s.pending ∧
    (s.engineReply q r).timer = s.timer ∧ (s.engineReply q r).streams = s.streams ∧
    (s.engineReply q r).gates = s.gates ∧ (s.engineReply q r).retention = s.retention ∧
    (s.engineReply q r).gen = s.gen ∧ (s.engineReply q r).mgmt.requests = s.mgmt.requests ∧
    (s.engineReply q r).mgmt.engine = s.mgmt.engine ∧
    (s.engineReply q r).mgmt.portControl = s.mgmt.portControl ∧
    (s.engineReply q r).mgmt.conditions = s.mgmt.conditions ∧
    (s.engineReply q r).mgmt.notices = s.mgmt.notices ∧ (s.engineReply q r).mgmt.noticeSeq = s.mgmt.noticeSeq ∧
    (s.engineReply q r).mgmt.epoch = s.mgmt.epoch ∧ (s.engineReply q r).mgmt.drain = s.mgmt.drain ∧
    (∀ x, ((s.engineReply q r).port x).state = (s.port x).state) ∧
    (∀ x, ((s.engineReply q r).port x).tx = (s.port x).tx) ∧
    (∀ x, ((s.engineReply q r).port x).rx = (s.port x).rx) ∧
    (∀ x, ((s.engineReply q r).port x).holder = (s.port x).holder) ∧
    (∀ x, ((s.engineReply q r).port x).lastCheck = (s.port x).lastCheck) ∧
    (∀ x, ((s.engineReply q r).port x).good = (s.port x).good) ∧
    (∀ x, ((s.engineReply q r).port x).bad = (s.port x).bad) ∧
    (∀ x, ((s.engineReply q r).port x).qualCount = (s.port x).qualCount) ∧
    (∀ x, ((s.engineReply q r).port x).signalGood = (s.port x).signalGood) := by
  simp [State.engineReply]

@[simp] theorem State.engineReply_views (s : State) (q : Request) (r : Reply) :
    (s.engineReply q r).base = s.base := by
  simp [State.base]

@[simp] theorem State.answer_frame (s : State) (q : Request) (st : Status) (n : Nat) (d : List Byte) :
    (s.answer q st n d).power = s.power ∧ (s.answer q st n d).straps = s.straps ∧
    (s.answer q st n d).refCount = s.refCount ∧ (s.answer q st n d).pending = s.pending ∧
    (s.answer q st n d).timer = s.timer ∧ (s.answer q st n d).streams = s.streams ∧
    (s.answer q st n d).gates = s.gates ∧ (s.answer q st n d).retention = s.retention ∧
    (s.answer q st n d).gen = s.gen ∧ (s.answer q st n d).mgmt.requests = s.mgmt.requests ∧
    (s.answer q st n d).mgmt.portControl = s.mgmt.portControl ∧
    (s.answer q st n d).mgmt.conditions = s.mgmt.conditions ∧
    (s.answer q st n d).mgmt.notices = s.mgmt.notices ∧ (s.answer q st n d).mgmt.noticeSeq = s.mgmt.noticeSeq ∧
    (s.answer q st n d).mgmt.epoch = s.mgmt.epoch ∧ (s.answer q st n d).mgmt.drain = s.mgmt.drain ∧
    (∀ x, ((s.answer q st n d).port x).state = (s.port x).state) ∧
    (∀ x, ((s.answer q st n d).port x).tx = (s.port x).tx) ∧
    (∀ x, ((s.answer q st n d).port x).rx = (s.port x).rx) ∧
    (∀ x, ((s.answer q st n d).port x).holder = (s.port x).holder) ∧
    (∀ x, ((s.answer q st n d).port x).lastCheck = (s.port x).lastCheck) ∧
    (∀ x, ((s.answer q st n d).port x).good = (s.port x).good) ∧
    (∀ x, ((s.answer q st n d).port x).bad = (s.port x).bad) ∧
    (∀ x, ((s.answer q st n d).port x).qualCount = (s.port x).qualCount) ∧
    (∀ x, ((s.answer q st n d).port x).signalGood = (s.port x).signalGood) := by
  simp [State.answer]

@[simp] theorem State.answer_views (s : State) (q : Request) (st : Status) (n : Nat) (d : List Byte) :
    (s.answer q st n d).base = s.base := by
  simp [State.base]

@[simp] theorem State.answerBare_frame (s : State) (q : Request) (st : Status) :
    (s.answerBare q st).power = s.power ∧ (s.answerBare q st).straps = s.straps ∧
    (s.answerBare q st).refCount = s.refCount ∧ (s.answerBare q st).pending = s.pending ∧
    (s.answerBare q st).timer = s.timer ∧ (s.answerBare q st).streams = s.streams ∧
    (s.answerBare q st).gates = s.gates ∧ (s.answerBare q st).retention = s.retention ∧
    (s.answerBare q st).gen = s.gen ∧ (s.answerBare q st).mgmt.requests = s.mgmt.requests ∧
    (s.answerBare q st).mgmt.portControl = s.mgmt.portControl ∧
    (s.answerBare q st).mgmt.conditions = s.mgmt.conditions ∧
    (s.answerBare q st).mgmt.notices = s.mgmt.notices ∧ (s.answerBare q st).mgmt.noticeSeq = s.mgmt.noticeSeq ∧
    (s.answerBare q st).mgmt.epoch = s.mgmt.epoch ∧ (s.answerBare q st).mgmt.drain = s.mgmt.drain ∧
    (∀ x, ((s.answerBare q st).port x).state = (s.port x).state) ∧
    (∀ x, ((s.answerBare q st).port x).tx = (s.port x).tx) ∧
    (∀ x, ((s.answerBare q st).port x).rx = (s.port x).rx) ∧
    (∀ x, ((s.answerBare q st).port x).holder = (s.port x).holder) ∧
    (∀ x, ((s.answerBare q st).port x).lastCheck = (s.port x).lastCheck) ∧
    (∀ x, ((s.answerBare q st).port x).good = (s.port x).good) ∧
    (∀ x, ((s.answerBare q st).port x).bad = (s.port x).bad) ∧
    (∀ x, ((s.answerBare q st).port x).qualCount = (s.port x).qualCount) ∧
    (∀ x, ((s.answerBare q st).port x).signalGood = (s.port x).signalGood) := by
  simp [State.answerBare]

@[simp] theorem State.answerBare_views (s : State) (q : Request) (st : Status) :
    (s.answerBare q st).base = s.base := by
  simp [State.base]

@[simp] theorem State.completeOp_frame (s : State) (r : Byte) (t : W16) (p : Port) (k : Byte) (o : Option Nat) (st : Status) (d : Option Detail) :
    (s.completeOp r t p k o st d).power = s.power ∧ (s.completeOp r t p k o st d).straps = s.straps ∧
    (s.completeOp r t p k o st d).refCount = s.refCount ∧ (s.completeOp r t p k o st d).pending = s.pending ∧
    (s.completeOp r t p k o st d).timer = s.timer ∧ (s.completeOp r t p k o st d).streams = s.streams ∧
    (s.completeOp r t p k o st d).gates = s.gates ∧ (s.completeOp r t p k o st d).retention = s.retention ∧
    (s.completeOp r t p k o st d).gen = s.gen ∧ (s.completeOp r t p k o st d).mgmt.requests = s.mgmt.requests ∧
    (s.completeOp r t p k o st d).mgmt.engine = s.mgmt.engine ∧
    (s.completeOp r t p k o st d).mgmt.portControl = s.mgmt.portControl ∧
    (s.completeOp r t p k o st d).mgmt.notices = s.mgmt.notices ∧
    (s.completeOp r t p k o st d).mgmt.noticeSeq = s.mgmt.noticeSeq ∧
    (s.completeOp r t p k o st d).mgmt.epoch = s.mgmt.epoch ∧
    (s.completeOp r t p k o st d).mgmt.drain = s.mgmt.drain ∧
    (∀ x, ((s.completeOp r t p k o st d).port x).state = (s.port x).state) ∧
    (∀ x, ((s.completeOp r t p k o st d).port x).tx = (s.port x).tx) ∧
    (∀ x, ((s.completeOp r t p k o st d).port x).rx = (s.port x).rx) ∧
    (∀ x, ((s.completeOp r t p k o st d).port x).holder = (s.port x).holder) ∧
    (∀ x, ((s.completeOp r t p k o st d).port x).lastCheck = (s.port x).lastCheck) ∧
    (∀ x, ((s.completeOp r t p k o st d).port x).good = (s.port x).good) ∧
    (∀ x, ((s.completeOp r t p k o st d).port x).bad = (s.port x).bad) ∧
    (∀ x, ((s.completeOp r t p k o st d).port x).qualCount = (s.port x).qualCount) ∧
    (∀ x, ((s.completeOp r t p k o st d).port x).signalGood = (s.port x).signalGood) := by
  unfold State.completeOp
  (repeat' split) <;> simp

@[simp] theorem State.completeOp_views (s : State) (r : Byte) (t : W16) (p : Port) (k : Byte) (o : Option Nat) (st : Status) (d : Option Detail) :
    (s.completeOp r t p k o st d).base = s.base := by
  simp [State.base]

@[simp] theorem State.completePortControl_frame (s : State) (p : Port) (st : Status) (d : Option Detail) :
    (s.completePortControl p st d).power = s.power ∧ (s.completePortControl p st d).straps = s.straps ∧
    (s.completePortControl p st d).refCount = s.refCount ∧ (s.completePortControl p st d).pending = s.pending ∧
    (s.completePortControl p st d).timer = s.timer ∧ (s.completePortControl p st d).streams = s.streams ∧
    (s.completePortControl p st d).gates = s.gates ∧ (s.completePortControl p st d).retention = s.retention ∧
    (s.completePortControl p st d).gen = s.gen ∧
    (s.completePortControl p st d).mgmt.requests = s.mgmt.requests ∧
    (s.completePortControl p st d).mgmt.engine = s.mgmt.engine ∧
    (s.completePortControl p st d).mgmt.notices = s.mgmt.notices ∧
    (s.completePortControl p st d).mgmt.noticeSeq = s.mgmt.noticeSeq ∧
    (s.completePortControl p st d).mgmt.epoch = s.mgmt.epoch ∧
    (s.completePortControl p st d).mgmt.drain = s.mgmt.drain ∧
    (∀ x, ((s.completePortControl p st d).port x).state = (s.port x).state) ∧
    (∀ x, ((s.completePortControl p st d).port x).tx = (s.port x).tx) ∧
    (∀ x, ((s.completePortControl p st d).port x).rx = (s.port x).rx) ∧
    (∀ x, ((s.completePortControl p st d).port x).holder = (s.port x).holder) ∧
    (∀ x, ((s.completePortControl p st d).port x).lastCheck = (s.port x).lastCheck) ∧
    (∀ x, ((s.completePortControl p st d).port x).good = (s.port x).good) ∧
    (∀ x, ((s.completePortControl p st d).port x).bad = (s.port x).bad) ∧
    (∀ x, ((s.completePortControl p st d).port x).qualCount = (s.port x).qualCount) ∧
    (∀ x, ((s.completePortControl p st d).port x).signalGood = (s.port x).signalGood) := by
  unfold State.completePortControl
  (repeat' split) <;> simp

@[simp] theorem State.completePortControl_views (s : State) (p : Port) (st : Status) (d : Option Detail) :
    (s.completePortControl p st d).base = s.base := by
  simp [State.base]

@[simp] theorem State.completeCommit_frame (s : State) (st : Status) (d : Option Detail) :
    (s.completeCommit st d).power = s.power ∧ (s.completeCommit st d).straps = s.straps ∧
    (s.completeCommit st d).refCount = s.refCount ∧ (s.completeCommit st d).pending = s.pending ∧
    (s.completeCommit st d).timer = s.timer ∧ (s.completeCommit st d).streams = s.streams ∧
    (s.completeCommit st d).gates = s.gates ∧ (s.completeCommit st d).retention = s.retention ∧
    (s.completeCommit st d).mgmt.requests = s.mgmt.requests ∧
    (s.completeCommit st d).mgmt.engine = s.mgmt.engine ∧
    (s.completeCommit st d).mgmt.portControl = s.mgmt.portControl ∧
    (s.completeCommit st d).mgmt.notices = s.mgmt.notices ∧
    (s.completeCommit st d).mgmt.noticeSeq = s.mgmt.noticeSeq ∧
    (s.completeCommit st d).mgmt.epoch = s.mgmt.epoch ∧ (s.completeCommit st d).mgmt.drain = s.mgmt.drain ∧
    (s.completeCommit st d).gen.active = s.gen.active ∧ (s.completeCommit st d).gen.shadow = s.gen.shadow ∧
    (s.completeCommit st d).gen.number = s.gen.number ∧
    (∀ x, ((s.completeCommit st d).port x).state = (s.port x).state) ∧
    (∀ x, ((s.completeCommit st d).port x).tx = (s.port x).tx) ∧
    (∀ x, ((s.completeCommit st d).port x).rx = (s.port x).rx) ∧
    (∀ x, ((s.completeCommit st d).port x).holder = (s.port x).holder) ∧
    (∀ x, ((s.completeCommit st d).port x).lastCheck = (s.port x).lastCheck) ∧
    (∀ x, ((s.completeCommit st d).port x).good = (s.port x).good) ∧
    (∀ x, ((s.completeCommit st d).port x).bad = (s.port x).bad) ∧
    (∀ x, ((s.completeCommit st d).port x).qualCount = (s.port x).qualCount) ∧
    (∀ x, ((s.completeCommit st d).port x).signalGood = (s.port x).signalGood) := by
  unfold State.completeCommit
  (repeat' split) <;> simp

@[simp] theorem State.completeCommit_views (s : State) (st : Status) (d : Option Detail) :
    (s.completeCommit st d).base = s.base := by
  simp [State.base]

@[simp] theorem State.intake_frame (s : State) (p : Port) (n len : Nat) :
    (s.intake p n len).power = s.power ∧ (s.intake p n len).straps = s.straps ∧
    (s.intake p n len).refCount = s.refCount ∧ (s.intake p n len).pending = s.pending ∧
    (s.intake p n len).timer = s.timer ∧ (s.intake p n len).streams = s.streams ∧
    (s.intake p n len).gates = s.gates ∧ (s.intake p n len).retention = s.retention ∧
    (s.intake p n len).gen = s.gen ∧ (s.intake p n len).mgmt.engine = s.mgmt.engine ∧
    (s.intake p n len).mgmt.answered = s.mgmt.answered ∧
    (s.intake p n len).mgmt.portControl = s.mgmt.portControl ∧
    (s.intake p n len).mgmt.conditions = s.mgmt.conditions ∧ (s.intake p n len).mgmt.notices = s.mgmt.notices ∧
    (s.intake p n len).mgmt.noticeSeq = s.mgmt.noticeSeq ∧ (s.intake p n len).mgmt.epoch = s.mgmt.epoch ∧
    (s.intake p n len).mgmt.drain = s.mgmt.drain ∧
    (∀ x, ((s.intake p n len).port x).state = (s.port x).state) ∧
    (∀ x, ((s.intake p n len).port x).tx = (s.port x).tx) ∧
    (∀ x, ((s.intake p n len).port x).rx = (s.port x).rx) ∧
    (∀ x, ((s.intake p n len).port x).holder = (s.port x).holder) ∧
    (∀ x, ((s.intake p n len).port x).lastCheck = (s.port x).lastCheck) ∧
    (∀ x, ((s.intake p n len).port x).good = (s.port x).good) ∧
    (∀ x, ((s.intake p n len).port x).bad = (s.port x).bad) ∧
    (∀ x, ((s.intake p n len).port x).qualCount = (s.port x).qualCount) ∧
    (∀ x, ((s.intake p n len).port x).signalGood = (s.port x).signalGood) := by
  simp only [State.intake]
  (repeat' split) <;> simp

@[simp] theorem State.intake_views (s : State) (p : Port) (n len : Nat) :
    (s.intake p n len).base = s.base := by
  simp [State.base]

@[simp] theorem State.take_frame (s : State) :
    s.take.power = s.power ∧ s.take.straps = s.straps ∧ s.take.refCount = s.refCount ∧
    s.take.pending = s.pending ∧ s.take.timer = s.timer ∧ s.take.streams = s.streams ∧ s.take.gates = s.gates ∧
    s.take.retention = s.retention ∧ s.take.queues = s.queues ∧ s.take.opportunities = s.opportunities ∧
    s.take.store = s.store ∧ s.take.gen = s.gen ∧ s.take.mgmt.answered = s.mgmt.answered ∧
    s.take.mgmt.portControl = s.mgmt.portControl ∧ s.take.mgmt.conditions = s.mgmt.conditions ∧
    s.take.mgmt.notices = s.mgmt.notices ∧ s.take.mgmt.noticeSeq = s.mgmt.noticeSeq ∧
    s.take.mgmt.epoch = s.mgmt.epoch ∧ s.take.mgmt.drain = s.mgmt.drain ∧ s.take.ports = s.ports := by
  unfold State.take
  (repeat' split) <;> simp

@[simp] theorem State.take_views (s : State) :
    (∀ x, s.take.port x = s.port x) ∧ (∀ x y, s.take.egress x y = s.egress x y) ∧ s.take.base = s.base := by
  simp [State.port, State.egress, State.base]

@[simp] theorem State.deliverCondition_frame (s : State) (q : Request) :
    (s.deliverCondition q).power = s.power ∧ (s.deliverCondition q).straps = s.straps ∧
    (s.deliverCondition q).refCount = s.refCount ∧ (s.deliverCondition q).pending = s.pending ∧
    (s.deliverCondition q).timer = s.timer ∧ (s.deliverCondition q).streams = s.streams ∧
    (s.deliverCondition q).gates = s.gates ∧ (s.deliverCondition q).retention = s.retention ∧
    (s.deliverCondition q).gen = s.gen ∧ (s.deliverCondition q).mgmt.requests = s.mgmt.requests ∧
    (s.deliverCondition q).mgmt.portControl = s.mgmt.portControl ∧
    (s.deliverCondition q).mgmt.notices = s.mgmt.notices ∧
    (s.deliverCondition q).mgmt.noticeSeq = s.mgmt.noticeSeq ∧
    (s.deliverCondition q).mgmt.epoch = s.mgmt.epoch ∧ (s.deliverCondition q).mgmt.drain = s.mgmt.drain ∧
    (∀ x, ((s.deliverCondition q).port x).state = (s.port x).state) ∧
    (∀ x, ((s.deliverCondition q).port x).tx = (s.port x).tx) ∧
    (∀ x, ((s.deliverCondition q).port x).rx = (s.port x).rx) ∧
    (∀ x, ((s.deliverCondition q).port x).holder = (s.port x).holder) ∧
    (∀ x, ((s.deliverCondition q).port x).lastCheck = (s.port x).lastCheck) ∧
    (∀ x, ((s.deliverCondition q).port x).good = (s.port x).good) ∧
    (∀ x, ((s.deliverCondition q).port x).bad = (s.port x).bad) ∧
    (∀ x, ((s.deliverCondition q).port x).qualCount = (s.port x).qualCount) ∧
    (∀ x, ((s.deliverCondition q).port x).signalGood = (s.port x).signalGood) := by
  simp only [State.deliverCondition]
  simp

@[simp] theorem State.deliverCondition_views (s : State) (q : Request) :
    (s.deliverCondition q).base = s.base := by
  simp [State.base]

@[simp] theorem State.nextNotice_frame (s : State) :
    s.nextNotice.power = s.power ∧ s.nextNotice.straps = s.straps ∧ s.nextNotice.refCount = s.refCount ∧
    s.nextNotice.pending = s.pending ∧ s.nextNotice.timer = s.timer ∧ s.nextNotice.streams = s.streams ∧
    s.nextNotice.gates = s.gates ∧ s.nextNotice.retention = s.retention ∧ s.nextNotice.queues = s.queues ∧
    s.nextNotice.opportunities = s.opportunities ∧ s.nextNotice.store = s.store ∧ s.nextNotice.gen = s.gen ∧
    s.nextNotice.mgmt.requests = s.mgmt.requests ∧ s.nextNotice.mgmt.engine = s.mgmt.engine ∧
    s.nextNotice.mgmt.answered = s.mgmt.answered ∧ s.nextNotice.mgmt.portControl = s.mgmt.portControl ∧
    s.nextNotice.mgmt.conditions = s.mgmt.conditions ∧ s.nextNotice.mgmt.notices = s.mgmt.notices ∧
    s.nextNotice.mgmt.epoch = s.mgmt.epoch ∧ s.nextNotice.mgmt.drain = s.mgmt.drain ∧
    s.nextNotice.ports = s.ports := by
  simp [State.nextNotice]

@[simp] theorem State.nextNotice_views (s : State) :
    (∀ x, s.nextNotice.port x = s.port x) ∧ (∀ x y, s.nextNotice.egress x y = s.egress x y) ∧
    s.nextNotice.base = s.base := by
  simp [State.port, State.egress, State.base]

@[simp] theorem State.buildNotice_frame (s : State) (p : Port) (n : Nat) (k : NoticeKind) :
    (s.buildNotice p n k).power = s.power ∧ (s.buildNotice p n k).straps = s.straps ∧
    (s.buildNotice p n k).refCount = s.refCount ∧ (s.buildNotice p n k).pending = s.pending ∧
    (s.buildNotice p n k).timer = s.timer ∧ (s.buildNotice p n k).streams = s.streams ∧
    (s.buildNotice p n k).gates = s.gates ∧ (s.buildNotice p n k).retention = s.retention ∧
    (s.buildNotice p n k).store.count = s.store.count ∧ (s.buildNotice p n k).store.free = s.store.free ∧
    (s.buildNotice p n k).gen = s.gen ∧ (s.buildNotice p n k).mgmt.requests = s.mgmt.requests ∧
    (s.buildNotice p n k).mgmt.engine = s.mgmt.engine ∧ (s.buildNotice p n k).mgmt.answered = s.mgmt.answered ∧
    (s.buildNotice p n k).mgmt.portControl = s.mgmt.portControl ∧
    (s.buildNotice p n k).mgmt.conditions = s.mgmt.conditions ∧
    (s.buildNotice p n k).mgmt.epoch = s.mgmt.epoch ∧ (s.buildNotice p n k).mgmt.drain = s.mgmt.drain ∧
    (s.buildNotice p n k).ports = s.ports := by
  simp [State.buildNotice]

@[simp] theorem State.buildNotice_views (s : State) (p : Port) (n : Nat) (k : NoticeKind) :
    (∀ x, (s.buildNotice p n k).port x = s.port x) ∧ (s.buildNotice p n k).base = s.base := by
  simp [State.port, State.base]

@[simp] theorem State.tryNotice_frame (s : State) (k : NoticeKind) :
    (s.tryNotice k).power = s.power ∧ (s.tryNotice k).straps = s.straps ∧
    (s.tryNotice k).refCount = s.refCount ∧ (s.tryNotice k).pending = s.pending ∧
    (s.tryNotice k).timer = s.timer ∧ (s.tryNotice k).streams = s.streams ∧ (s.tryNotice k).gates = s.gates ∧
    (s.tryNotice k).retention = s.retention ∧ (s.tryNotice k).gen = s.gen ∧
    (s.tryNotice k).mgmt.requests = s.mgmt.requests ∧ (s.tryNotice k).mgmt.engine = s.mgmt.engine ∧
    (s.tryNotice k).mgmt.answered = s.mgmt.answered ∧ (s.tryNotice k).mgmt.portControl = s.mgmt.portControl ∧
    (s.tryNotice k).mgmt.conditions = s.mgmt.conditions ∧ (s.tryNotice k).mgmt.epoch = s.mgmt.epoch ∧
    (s.tryNotice k).mgmt.drain = s.mgmt.drain ∧ (s.tryNotice k).ports = s.ports := by
  unfold State.tryNotice
  (repeat' split) <;> simp
  all_goals
    rename_i n s' h
    have hs : s' = s.takeSlot.2 := by simp [h]
    subst hs
    simp

@[simp] theorem State.tryNotice_views (s : State) (k : NoticeKind) :
    (∀ x, (s.tryNotice k).port x = s.port x) ∧ (s.tryNotice k).base = s.base := by
  simp [State.port, State.base]

@[simp] theorem State.tryNotices_frame (s : State) :
    s.tryNotices.power = s.power ∧ s.tryNotices.straps = s.straps ∧ s.tryNotices.refCount = s.refCount ∧
    s.tryNotices.pending = s.pending ∧ s.tryNotices.timer = s.timer ∧ s.tryNotices.streams = s.streams ∧
    s.tryNotices.gates = s.gates ∧ s.tryNotices.retention = s.retention ∧ s.tryNotices.gen = s.gen ∧
    s.tryNotices.mgmt.requests = s.mgmt.requests ∧ s.tryNotices.mgmt.engine = s.mgmt.engine ∧
    s.tryNotices.mgmt.answered = s.mgmt.answered ∧ s.tryNotices.mgmt.portControl = s.mgmt.portControl ∧
    s.tryNotices.mgmt.conditions = s.mgmt.conditions ∧ s.tryNotices.mgmt.epoch = s.mgmt.epoch ∧
    s.tryNotices.mgmt.drain = s.mgmt.drain ∧ s.tryNotices.ports = s.ports := by
  unfold State.tryNotices
  split <;> simp

@[simp] theorem State.tryNotices_views (s : State) :
    (∀ x, s.tryNotices.port x = s.port x) ∧ s.tryNotices.base = s.base := by
  simp [State.port, State.base]

@[simp] theorem State.takeBaseIntoUse_frame (s : State) (o : BaseRecord) :
    (s.takeBaseIntoUse o).power = s.power ∧ (s.takeBaseIntoUse o).straps = s.straps ∧
    (s.takeBaseIntoUse o).refCount = s.refCount ∧ (s.takeBaseIntoUse o).pending = s.pending ∧
    (s.takeBaseIntoUse o).streams = s.streams ∧ (s.takeBaseIntoUse o).gates = s.gates ∧
    (s.takeBaseIntoUse o).retention = s.retention ∧ (s.takeBaseIntoUse o).queues = s.queues ∧
    (s.takeBaseIntoUse o).opportunities = s.opportunities ∧ (s.takeBaseIntoUse o).store = s.store ∧
    (s.takeBaseIntoUse o).gen = s.gen ∧ (s.takeBaseIntoUse o).mgmt.requests = s.mgmt.requests ∧
    (s.takeBaseIntoUse o).mgmt.engine = s.mgmt.engine ∧ (s.takeBaseIntoUse o).mgmt.answered = s.mgmt.answered ∧
    (s.takeBaseIntoUse o).mgmt.portControl = s.mgmt.portControl ∧
    (s.takeBaseIntoUse o).mgmt.conditions = s.mgmt.conditions ∧
    (s.takeBaseIntoUse o).mgmt.noticeSeq = s.mgmt.noticeSeq ∧ (s.takeBaseIntoUse o).mgmt.epoch = s.mgmt.epoch ∧
    (s.takeBaseIntoUse o).mgmt.drain = s.mgmt.drain ∧
    (s.takeBaseIntoUse o).timer.cycleCount = s.timer.cycleCount ∧
    (s.takeBaseIntoUse o).timer.index = s.timer.index ∧ (s.takeBaseIntoUse o).timer.round = s.timer.round ∧
    (s.takeBaseIntoUse o).timer.position = s.timer.position ∧
    (s.takeBaseIntoUse o).timer.effLength = s.timer.effLength ∧
    (s.takeBaseIntoUse o).timer.trim = s.timer.trim ∧ (s.takeBaseIntoUse o).timer.residue = s.timer.residue ∧
    (s.takeBaseIntoUse o).timer.good = s.timer.good ∧ (s.takeBaseIntoUse o).timer.used = s.timer.used ∧
    (s.takeBaseIntoUse o).timer.lastErr = s.timer.lastErr ∧ (s.takeBaseIntoUse o).ports = s.ports := by
  simp only [State.takeBaseIntoUse]
  (repeat' split) <;> simp

@[simp] theorem State.takeBaseIntoUse_views (s : State) (o : BaseRecord) :
    (∀ x, (s.takeBaseIntoUse o).port x = s.port x) ∧ (∀ x y, (s.takeBaseIntoUse o).egress x y = s.egress x y) ∧
    (s.takeBaseIntoUse o).base = s.base := by
  simp [State.port, State.egress, State.base]

@[simp] theorem State.exchangeBanks_frame (s : State) :
    s.exchangeBanks.power = s.power ∧ s.exchangeBanks.straps = s.straps ∧
    s.exchangeBanks.refCount = s.refCount ∧ s.exchangeBanks.pending = s.pending ∧
    s.exchangeBanks.timer = s.timer ∧ s.exchangeBanks.streams = s.streams ∧ s.exchangeBanks.gates = s.gates ∧
    s.exchangeBanks.retention = s.retention ∧ s.exchangeBanks.queues = s.queues ∧
    s.exchangeBanks.opportunities = s.opportunities ∧ s.exchangeBanks.store = s.store ∧
    s.exchangeBanks.mgmt = s.mgmt ∧ s.exchangeBanks.gen.commit = s.gen.commit ∧
    s.exchangeBanks.ports = s.ports := by
  simp [State.exchangeBanks]

@[simp] theorem State.exchangeBanks_views (s : State) :
    (∀ x, s.exchangeBanks.port x = s.port x) ∧ (∀ x y, s.exchangeBanks.egress x y = s.egress x y) := by
  simp [State.port, State.egress]

@[simp] theorem State.swap_frame (s : State) :
    s.swap.power = s.power ∧ s.swap.straps = s.straps ∧ s.swap.refCount = s.refCount ∧
    s.swap.pending = s.pending ∧ s.swap.gates = s.gates ∧ s.swap.retention = s.retention ∧
    s.swap.mgmt.requests = s.mgmt.requests ∧ s.swap.mgmt.engine = s.mgmt.engine ∧
    s.swap.mgmt.portControl = s.mgmt.portControl ∧ s.swap.mgmt.noticeSeq = s.mgmt.noticeSeq ∧
    s.swap.mgmt.epoch = s.mgmt.epoch ∧ s.swap.mgmt.drain = s.mgmt.drain ∧
    s.swap.timer.cycleCount = s.timer.cycleCount ∧ s.swap.timer.index = s.timer.index ∧
    s.swap.timer.round = s.timer.round ∧ s.swap.timer.position = s.timer.position ∧
    s.swap.timer.effLength = s.timer.effLength ∧ s.swap.timer.trim = s.timer.trim ∧
    s.swap.timer.residue = s.timer.residue ∧ s.swap.timer.good = s.timer.good ∧
    s.swap.timer.used = s.timer.used ∧ s.swap.timer.lastErr = s.timer.lastErr ∧
    (∀ x, (s.swap.port x).state = (s.port x).state) ∧ (∀ x, (s.swap.port x).tx = (s.port x).tx) ∧
    (∀ x, (s.swap.port x).rx = (s.port x).rx) ∧ (∀ x, (s.swap.port x).holder = (s.port x).holder) ∧
    (∀ x, (s.swap.port x).lastCheck = (s.port x).lastCheck) ∧ (∀ x, (s.swap.port x).good = (s.port x).good) ∧
    (∀ x, (s.swap.port x).bad = (s.port x).bad) ∧ (∀ x, (s.swap.port x).qualCount = (s.port x).qualCount) ∧
    (∀ x, (s.swap.port x).signalGood = (s.port x).signalGood) := by
  simp only [State.swap]
  simp

@[simp] theorem State.failCommit_frame (s : State) (st : Status) (r : W16) :
    (s.failCommit st r).power = s.power ∧ (s.failCommit st r).straps = s.straps ∧
    (s.failCommit st r).refCount = s.refCount ∧ (s.failCommit st r).pending = s.pending ∧
    (s.failCommit st r).timer = s.timer ∧ (s.failCommit st r).streams = s.streams ∧
    (s.failCommit st r).gates = s.gates ∧ (s.failCommit st r).retention = s.retention ∧
    (s.failCommit st r).mgmt.requests = s.mgmt.requests ∧ (s.failCommit st r).mgmt.engine = s.mgmt.engine ∧
    (s.failCommit st r).mgmt.portControl = s.mgmt.portControl ∧
    (s.failCommit st r).mgmt.notices = s.mgmt.notices ∧ (s.failCommit st r).mgmt.noticeSeq = s.mgmt.noticeSeq ∧
    (s.failCommit st r).mgmt.epoch = s.mgmt.epoch ∧ (s.failCommit st r).mgmt.drain = s.mgmt.drain ∧
    (s.failCommit st r).gen.active = s.gen.active ∧ (s.failCommit st r).gen.shadow = s.gen.shadow ∧
    (s.failCommit st r).gen.number = s.gen.number ∧
    (∀ x, ((s.failCommit st r).port x).state = (s.port x).state) ∧
    (∀ x, ((s.failCommit st r).port x).tx = (s.port x).tx) ∧
    (∀ x, ((s.failCommit st r).port x).rx = (s.port x).rx) ∧
    (∀ x, ((s.failCommit st r).port x).holder = (s.port x).holder) ∧
    (∀ x, ((s.failCommit st r).port x).lastCheck = (s.port x).lastCheck) ∧
    (∀ x, ((s.failCommit st r).port x).good = (s.port x).good) ∧
    (∀ x, ((s.failCommit st r).port x).bad = (s.port x).bad) ∧
    (∀ x, ((s.failCommit st r).port x).qualCount = (s.port x).qualCount) ∧
    (∀ x, ((s.failCommit st r).port x).signalGood = (s.port x).signalGood) := by
  simp [State.failCommit]

@[simp] theorem State.failCommit_views (s : State) (st : Status) (r : W16) :
    (s.failCommit st r).base = s.base := by
  simp [State.base]

@[simp] theorem State.roundStart_frame (s : State) :
    s.roundStart.power = s.power ∧ s.roundStart.straps = s.straps ∧ s.roundStart.refCount = s.refCount ∧
    s.roundStart.pending = s.pending ∧ s.roundStart.gates = s.gates ∧ s.roundStart.retention = s.retention ∧
    s.roundStart.mgmt.requests = s.mgmt.requests ∧ s.roundStart.mgmt.engine = s.mgmt.engine ∧
    s.roundStart.mgmt.portControl = s.mgmt.portControl ∧ s.roundStart.mgmt.noticeSeq = s.mgmt.noticeSeq ∧
    s.roundStart.mgmt.epoch = s.mgmt.epoch ∧ s.roundStart.mgmt.drain = s.mgmt.drain ∧
    s.roundStart.timer.cycleCount = s.timer.cycleCount ∧ s.roundStart.timer.index = s.timer.index ∧
    s.roundStart.timer.round = s.timer.round ∧ s.roundStart.timer.position = s.timer.position ∧
    s.roundStart.timer.effLength = s.timer.effLength ∧ s.roundStart.timer.trim = s.timer.trim ∧
    s.roundStart.timer.residue = s.timer.residue ∧ s.roundStart.timer.good = s.timer.good ∧
    s.roundStart.timer.used = s.timer.used ∧ s.roundStart.timer.lastErr = s.timer.lastErr ∧
    (∀ x, (s.roundStart.port x).state = (s.port x).state) ∧ (∀ x, (s.roundStart.port x).tx = (s.port x).tx) ∧
    (∀ x, (s.roundStart.port x).rx = (s.port x).rx) ∧ (∀ x, (s.roundStart.port x).holder = (s.port x).holder) ∧
    (∀ x, (s.roundStart.port x).lastCheck = (s.port x).lastCheck) ∧
    (∀ x, (s.roundStart.port x).good = (s.port x).good) ∧ (∀ x, (s.roundStart.port x).bad = (s.port x).bad) ∧
    (∀ x, (s.roundStart.port x).qualCount = (s.port x).qualCount) ∧
    (∀ x, (s.roundStart.port x).signalGood = (s.port x).signalGood) := by
  unfold State.roundStart
  (repeat' split) <;> simp

@[simp] theorem State.commitStep_frame (s : State) :
    s.commitStep.power = s.power ∧ s.commitStep.straps = s.straps ∧ s.commitStep.refCount = s.refCount ∧
    s.commitStep.pending = s.pending ∧ s.commitStep.timer = s.timer ∧ s.commitStep.streams = s.streams ∧
    s.commitStep.gates = s.gates ∧ s.commitStep.retention = s.retention ∧
    s.commitStep.mgmt.requests = s.mgmt.requests ∧ s.commitStep.mgmt.engine = s.mgmt.engine ∧
    s.commitStep.mgmt.portControl = s.mgmt.portControl ∧ s.commitStep.mgmt.notices = s.mgmt.notices ∧
    s.commitStep.mgmt.noticeSeq = s.mgmt.noticeSeq ∧ s.commitStep.mgmt.epoch = s.mgmt.epoch ∧
    s.commitStep.mgmt.drain = s.mgmt.drain ∧ s.commitStep.gen.active = s.gen.active ∧
    s.commitStep.gen.shadow = s.gen.shadow ∧ s.commitStep.gen.number = s.gen.number ∧
    (∀ x, (s.commitStep.port x).state = (s.port x).state) ∧ (∀ x, (s.commitStep.port x).tx = (s.port x).tx) ∧
    (∀ x, (s.commitStep.port x).rx = (s.port x).rx) ∧ (∀ x, (s.commitStep.port x).holder = (s.port x).holder) ∧
    (∀ x, (s.commitStep.port x).lastCheck = (s.port x).lastCheck) ∧
    (∀ x, (s.commitStep.port x).good = (s.port x).good) ∧ (∀ x, (s.commitStep.port x).bad = (s.port x).bad) ∧
    (∀ x, (s.commitStep.port x).qualCount = (s.port x).qualCount) ∧
    (∀ x, (s.commitStep.port x).signalGood = (s.port x).signalGood) := by
  unfold State.commitStep
  (repeat' split) <;> simp

@[simp] theorem State.commitStep_views (s : State) :
    s.commitStep.base = s.base := by
  simp [State.base]

@[simp] theorem State.accountMissed_frame (s : State) :
    s.accountMissed.power = s.power ∧ s.accountMissed.straps = s.straps ∧
    s.accountMissed.refCount = s.refCount ∧ s.accountMissed.pending = s.pending ∧
    s.accountMissed.streams = s.streams ∧ s.accountMissed.gates = s.gates ∧
    s.accountMissed.retention = s.retention ∧ s.accountMissed.queues = s.queues ∧
    s.accountMissed.opportunities = s.opportunities ∧ s.accountMissed.store = s.store ∧
    s.accountMissed.gen = s.gen ∧ s.accountMissed.mgmt.requests = s.mgmt.requests ∧
    s.accountMissed.mgmt.engine = s.mgmt.engine ∧ s.accountMissed.mgmt.answered = s.mgmt.answered ∧
    s.accountMissed.mgmt.portControl = s.mgmt.portControl ∧
    s.accountMissed.mgmt.conditions = s.mgmt.conditions ∧ s.accountMissed.mgmt.noticeSeq = s.mgmt.noticeSeq ∧
    s.accountMissed.mgmt.epoch = s.mgmt.epoch ∧ s.accountMissed.mgmt.drain = s.mgmt.drain ∧
    s.accountMissed.timer.cycleCount = s.timer.cycleCount ∧ s.accountMissed.timer.index = s.timer.index ∧
    s.accountMissed.timer.round = s.timer.round ∧ s.accountMissed.timer.position = s.timer.position ∧
    s.accountMissed.timer.effLength = s.timer.effLength ∧ s.accountMissed.timer.trim = s.timer.trim ∧
    s.accountMissed.timer.residue = s.timer.residue ∧ s.accountMissed.timer.slew = s.timer.slew ∧
    s.accountMissed.timer.lastErr = s.timer.lastErr ∧ s.accountMissed.ports = s.ports := by
  simp only [State.accountMissed]
  split <;> simp

@[simp] theorem State.accountMissed_views (s : State) :
    (∀ x, s.accountMissed.port x = s.port x) ∧ (∀ x y, s.accountMissed.egress x y = s.egress x y) ∧
    s.accountMissed.base = s.base := by
  simp [State.port, State.egress, State.base]

@[simp] theorem State.refreshBudgets_frame (s : State) :
    s.refreshBudgets.power = s.power ∧ s.refreshBudgets.straps = s.straps ∧
    s.refreshBudgets.refCount = s.refCount ∧ s.refreshBudgets.pending = s.pending ∧
    s.refreshBudgets.timer = s.timer ∧ s.refreshBudgets.gates = s.gates ∧
    s.refreshBudgets.retention = s.retention ∧ s.refreshBudgets.queues = s.queues ∧
    s.refreshBudgets.opportunities = s.opportunities ∧ s.refreshBudgets.store = s.store ∧
    s.refreshBudgets.gen = s.gen ∧ s.refreshBudgets.mgmt = s.mgmt ∧ s.refreshBudgets.ports = s.ports := by
  simp [State.refreshBudgets]

@[simp] theorem State.refreshBudgets_views (s : State) :
    (∀ x, s.refreshBudgets.port x = s.port x) ∧ (∀ x y, s.refreshBudgets.egress x y = s.egress x y) ∧
    s.refreshBudgets.base = s.base := by
  simp [State.port, State.egress, State.base]

@[simp] theorem State.atRoundStart_frame (s : State) :
    s.atRoundStart.power = s.power ∧ s.atRoundStart.straps = s.straps ∧ s.atRoundStart.refCount = s.refCount ∧
    s.atRoundStart.pending = s.pending ∧ s.atRoundStart.gates = s.gates ∧
    s.atRoundStart.retention = s.retention ∧ s.atRoundStart.mgmt.requests = s.mgmt.requests ∧
    s.atRoundStart.mgmt.engine = s.mgmt.engine ∧ s.atRoundStart.mgmt.portControl = s.mgmt.portControl ∧
    s.atRoundStart.mgmt.noticeSeq = s.mgmt.noticeSeq ∧ s.atRoundStart.mgmt.epoch = s.mgmt.epoch ∧
    s.atRoundStart.mgmt.drain = s.mgmt.drain ∧ s.atRoundStart.timer.cycleCount = s.timer.cycleCount ∧
    s.atRoundStart.timer.index = s.timer.index ∧ s.atRoundStart.timer.round = s.timer.round ∧
    s.atRoundStart.timer.position = s.timer.position ∧ s.atRoundStart.timer.effLength = s.timer.effLength ∧
    s.atRoundStart.timer.trim = s.timer.trim ∧ s.atRoundStart.timer.residue = s.timer.residue ∧
    s.atRoundStart.timer.good = s.timer.good ∧ s.atRoundStart.timer.used = s.timer.used ∧
    s.atRoundStart.timer.lastErr = s.timer.lastErr ∧ (∀ x, (s.atRoundStart.port x).state = (s.port x).state) ∧
    (∀ x, (s.atRoundStart.port x).tx = (s.port x).tx) ∧ (∀ x, (s.atRoundStart.port x).rx = (s.port x).rx) ∧
    (∀ x, (s.atRoundStart.port x).holder = (s.port x).holder) ∧
    (∀ x, (s.atRoundStart.port x).lastCheck = (s.port x).lastCheck) ∧
    (∀ x, (s.atRoundStart.port x).good = (s.port x).good) ∧
    (∀ x, (s.atRoundStart.port x).bad = (s.port x).bad) ∧
    (∀ x, (s.atRoundStart.port x).qualCount = (s.port x).qualCount) ∧
    (∀ x, (s.atRoundStart.port x).signalGood = (s.port x).signalGood) := by
  unfold State.atRoundStart
  (repeat' split) <;> simp

@[simp] theorem State.cycleEndTimer_frame (s : State) :
    s.cycleEndTimer.power = s.power ∧ s.cycleEndTimer.straps = s.straps ∧
    s.cycleEndTimer.refCount = s.refCount ∧ s.cycleEndTimer.pending = s.pending ∧
    s.cycleEndTimer.gates = s.gates ∧ s.cycleEndTimer.retention = s.retention ∧
    s.cycleEndTimer.mgmt.requests = s.mgmt.requests ∧ s.cycleEndTimer.mgmt.engine = s.mgmt.engine ∧
    s.cycleEndTimer.mgmt.portControl = s.mgmt.portControl ∧ s.cycleEndTimer.mgmt.noticeSeq = s.mgmt.noticeSeq ∧
    s.cycleEndTimer.mgmt.epoch = s.mgmt.epoch ∧ s.cycleEndTimer.mgmt.drain = s.mgmt.drain ∧
    s.cycleEndTimer.timer.trim = s.timer.trim ∧ s.cycleEndTimer.timer.lastErr = s.timer.lastErr ∧
    (∀ x, (s.cycleEndTimer.port x).state = (s.port x).state) ∧
    (∀ x, (s.cycleEndTimer.port x).tx = (s.port x).tx) ∧ (∀ x, (s.cycleEndTimer.port x).rx = (s.port x).rx) ∧
    (∀ x, (s.cycleEndTimer.port x).holder = (s.port x).holder) ∧
    (∀ x, (s.cycleEndTimer.port x).lastCheck = (s.port x).lastCheck) ∧
    (∀ x, (s.cycleEndTimer.port x).good = (s.port x).good) ∧
    (∀ x, (s.cycleEndTimer.port x).bad = (s.port x).bad) ∧
    (∀ x, (s.cycleEndTimer.port x).qualCount = (s.port x).qualCount) ∧
    (∀ x, (s.cycleEndTimer.port x).signalGood = (s.port x).signalGood) := by
  simp [State.cycleEndTimer, Timer.count, Timer.fixLength]

@[simp] theorem State.cycleEnd_frame (s : State) :
    s.cycleEnd.power = s.power ∧ s.cycleEnd.straps = s.straps ∧ s.cycleEnd.refCount = s.refCount ∧
    s.cycleEnd.pending = s.pending ∧ s.cycleEnd.mgmt.requests = s.mgmt.requests ∧
    s.cycleEnd.mgmt.engine = s.mgmt.engine ∧ s.cycleEnd.mgmt.portControl = s.mgmt.portControl ∧
    s.cycleEnd.mgmt.epoch = s.mgmt.epoch ∧ s.cycleEnd.mgmt.drain = s.mgmt.drain ∧
    s.cycleEnd.timer.trim = s.timer.trim ∧ s.cycleEnd.timer.lastErr = s.timer.lastErr ∧
    (∀ x, (s.cycleEnd.port x).state = (s.port x).state) ∧ (∀ x, (s.cycleEnd.port x).tx = (s.port x).tx) ∧
    (∀ x, (s.cycleEnd.port x).rx = (s.port x).rx) ∧ (∀ x, (s.cycleEnd.port x).holder = (s.port x).holder) ∧
    (∀ x, (s.cycleEnd.port x).lastCheck = (s.port x).lastCheck) ∧
    (∀ x, (s.cycleEnd.port x).good = (s.port x).good) ∧ (∀ x, (s.cycleEnd.port x).bad = (s.port x).bad) ∧
    (∀ x, (s.cycleEnd.port x).qualCount = (s.port x).qualCount) ∧
    (∀ x, (s.cycleEnd.port x).signalGood = (s.port x).signalGood) := by
  simp [State.cycleEnd]

@[simp] theorem State.phaseStep_frame (s : State) (pt : W16 × Nat × Nat) (n : Nat) :
    (s.phaseStep pt n).power = s.power ∧ (s.phaseStep pt n).straps = s.straps ∧
    (s.phaseStep pt n).refCount = s.refCount ∧ (s.phaseStep pt n).pending = s.pending ∧
    (s.phaseStep pt n).mgmt.requests = s.mgmt.requests ∧ (s.phaseStep pt n).mgmt.engine = s.mgmt.engine ∧
    (s.phaseStep pt n).mgmt.portControl = s.mgmt.portControl ∧
    (s.phaseStep pt n).mgmt.noticeSeq = s.mgmt.noticeSeq ∧ (s.phaseStep pt n).mgmt.epoch = s.mgmt.epoch ∧
    (s.phaseStep pt n).mgmt.drain = s.mgmt.drain ∧ (s.phaseStep pt n).timer.cycleCount = s.timer.cycleCount ∧
    (s.phaseStep pt n).timer.trim = s.timer.trim ∧ (s.phaseStep pt n).timer.missed = s.timer.missed ∧
    (s.phaseStep pt n).timer.lastErr = s.timer.lastErr ∧ (s.phaseStep pt n).gen.active = s.gen.active ∧
    (s.phaseStep pt n).gen.shadow = s.gen.shadow ∧ (s.phaseStep pt n).gen.number = s.gen.number ∧
    (∀ x, ((s.phaseStep pt n).port x).state = (s.port x).state) ∧
    (∀ x, ((s.phaseStep pt n).port x).tx = (s.port x).tx) ∧
    (∀ x, ((s.phaseStep pt n).port x).rx = (s.port x).rx) ∧
    (∀ x, ((s.phaseStep pt n).port x).holder = (s.port x).holder) ∧
    (∀ x, ((s.phaseStep pt n).port x).lastCheck = (s.port x).lastCheck) ∧
    (∀ x, ((s.phaseStep pt n).port x).good = (s.port x).good) ∧
    (∀ x, ((s.phaseStep pt n).port x).bad = (s.port x).bad) ∧
    (∀ x, ((s.phaseStep pt n).port x).qualCount = (s.port x).qualCount) ∧
    (∀ x, ((s.phaseStep pt n).port x).signalGood = (s.port x).signalGood) := by
  simp [State.phaseStep, Timer.land]

@[simp] theorem State.phaseStep_views (s : State) (pt : W16 × Nat × Nat) (n : Nat) :
    (s.phaseStep pt n).base = s.base := by
  simp [State.base]

@[simp] theorem State.servoCorrect_frame (s : State) (e : Int) (st : SyncState) (n : Nat) :
    (s.servoCorrect e st n).power = s.power ∧ (s.servoCorrect e st n).straps = s.straps ∧
    (s.servoCorrect e st n).refCount = s.refCount ∧ (s.servoCorrect e st n).pending = s.pending ∧
    (s.servoCorrect e st n).store.mem = s.store.mem ∧ (s.servoCorrect e st n).gen = s.gen ∧
    (s.servoCorrect e st n).mgmt.requests = s.mgmt.requests ∧
    (s.servoCorrect e st n).mgmt.engine = s.mgmt.engine ∧
    (s.servoCorrect e st n).mgmt.answered = s.mgmt.answered ∧
    (s.servoCorrect e st n).mgmt.portControl = s.mgmt.portControl ∧
    (s.servoCorrect e st n).mgmt.conditions = s.mgmt.conditions ∧
    (s.servoCorrect e st n).mgmt.noticeSeq = s.mgmt.noticeSeq ∧
    (s.servoCorrect e st n).mgmt.epoch = s.mgmt.epoch ∧ (s.servoCorrect e st n).mgmt.drain = s.mgmt.drain ∧
    (s.servoCorrect e st n).timer.cycleCount = s.timer.cycleCount ∧
    (s.servoCorrect e st n).timer.index = s.timer.index ∧ (s.servoCorrect e st n).timer.round = s.timer.round ∧
    (s.servoCorrect e st n).timer.position = s.timer.position ∧
    (s.servoCorrect e st n).timer.effLength = s.timer.effLength ∧
    (s.servoCorrect e st n).timer.residue = s.timer.residue ∧
    (s.servoCorrect e st n).timer.missed = s.timer.missed ∧ (s.servoCorrect e st n).timer.used = s.timer.used ∧
    (s.servoCorrect e st n).timer.lastErr = s.timer.lastErr ∧
    (∀ x, ((s.servoCorrect e st n).port x).state = (s.port x).state) ∧
    (∀ x, ((s.servoCorrect e st n).port x).tx = (s.port x).tx) ∧
    (∀ x, ((s.servoCorrect e st n).port x).rx = (s.port x).rx) ∧
    (∀ x, ((s.servoCorrect e st n).port x).holder = (s.port x).holder) ∧
    (∀ x, ((s.servoCorrect e st n).port x).lastCheck = (s.port x).lastCheck) ∧
    (∀ x, ((s.servoCorrect e st n).port x).good = (s.port x).good) ∧
    (∀ x, ((s.servoCorrect e st n).port x).bad = (s.port x).bad) ∧
    (∀ x, ((s.servoCorrect e st n).port x).qualCount = (s.port x).qualCount) ∧
    (∀ x, ((s.servoCorrect e st n).port x).signalGood = (s.port x).signalGood) := by
  simp [State.servoCorrect, Timer.correct]

@[simp] theorem State.servoCorrect_views (s : State) (e : Int) (st : SyncState) (n : Nat) :
    (s.servoCorrect e st n).base = s.base := by
  simp [State.base]

@[simp] theorem State.useSync_frame (s : State) (rx : Reception) (f : SyncFrame) :
    (s.useSync rx f).power = s.power ∧ (s.useSync rx f).straps = s.straps ∧
    (s.useSync rx f).refCount = s.refCount ∧ (s.useSync rx f).pending = s.pending ∧
    (s.useSync rx f).mgmt.requests = s.mgmt.requests ∧ (s.useSync rx f).mgmt.engine = s.mgmt.engine ∧
    (s.useSync rx f).mgmt.portControl = s.mgmt.portControl ∧
    (s.useSync rx f).mgmt.noticeSeq = s.mgmt.noticeSeq ∧ (s.useSync rx f).mgmt.epoch = s.mgmt.epoch ∧
    (s.useSync rx f).mgmt.drain = s.mgmt.drain ∧ (s.useSync rx f).timer.cycleCount = s.timer.cycleCount ∧
    (s.useSync rx f).gen.active = s.gen.active ∧ (s.useSync rx f).gen.shadow = s.gen.shadow ∧
    (s.useSync rx f).gen.number = s.gen.number ∧ (∀ x, ((s.useSync rx f).port x).state = (s.port x).state) ∧
    (∀ x, ((s.useSync rx f).port x).tx = (s.port x).tx) ∧ (∀ x, ((s.useSync rx f).port x).rx = (s.port x).rx) ∧
    (∀ x, ((s.useSync rx f).port x).holder = (s.port x).holder) ∧
    (∀ x, ((s.useSync rx f).port x).lastCheck = (s.port x).lastCheck) ∧
    (∀ x, ((s.useSync rx f).port x).good = (s.port x).good) ∧
    (∀ x, ((s.useSync rx f).port x).bad = (s.port x).bad) ∧
    (∀ x, ((s.useSync rx f).port x).qualCount = (s.port x).qualCount) ∧
    (∀ x, ((s.useSync rx f).port x).signalGood = (s.port x).signalGood) := by
  simp only [State.useSync]
  split <;> simp

@[simp] theorem State.useSync_views (s : State) (rx : Reception) (f : SyncFrame) :
    (s.useSync rx f).base = s.base := by
  simp [State.base]

@[simp] theorem State.fillHolder_frame (h : HeldSync) (s : State) (p : Port) :
    (State.fillHolder h s p).power = s.power ∧ (State.fillHolder h s p).straps = s.straps ∧
    (State.fillHolder h s p).refCount = s.refCount ∧ (State.fillHolder h s p).pending = s.pending ∧
    (State.fillHolder h s p).timer = s.timer ∧ (State.fillHolder h s p).streams = s.streams ∧
    (State.fillHolder h s p).gates = s.gates ∧ (State.fillHolder h s p).retention = s.retention ∧
    (State.fillHolder h s p).queues = s.queues ∧ (State.fillHolder h s p).store = s.store ∧
    (State.fillHolder h s p).gen = s.gen ∧ (State.fillHolder h s p).mgmt = s.mgmt ∧
    (∀ x, ((State.fillHolder h s p).port x).state = (s.port x).state) ∧
    (∀ x, ((State.fillHolder h s p).port x).tx = (s.port x).tx) ∧
    (∀ x, ((State.fillHolder h s p).port x).rx = (s.port x).rx) ∧
    (∀ x, ((State.fillHolder h s p).port x).lastCheck = (s.port x).lastCheck) ∧
    (∀ x, ((State.fillHolder h s p).port x).good = (s.port x).good) ∧
    (∀ x, ((State.fillHolder h s p).port x).bad = (s.port x).bad) ∧
    (∀ x, ((State.fillHolder h s p).port x).qualCount = (s.port x).qualCount) ∧
    (∀ x, ((State.fillHolder h s p).port x).signalGood = (s.port x).signalGood) := by
  simp only [State.fillHolder]
  (repeat' split) <;> simp

@[simp] theorem State.fillHolder_views (h : HeldSync) (s : State) (p : Port) :
    (∀ x y, (State.fillHolder h s p).egress x y = s.egress x y) ∧ (State.fillHolder h s p).base = s.base := by
  simp [State.egress, State.base]

@[simp] theorem State.syncArrival_frame (s : State) (p : Port) (rx : Reception) (f : SyncFrame) :
    (s.syncArrival p rx f).power = s.power ∧ (s.syncArrival p rx f).straps = s.straps ∧
    (s.syncArrival p rx f).refCount = s.refCount ∧ (s.syncArrival p rx f).pending = s.pending ∧
    (s.syncArrival p rx f).mgmt.requests = s.mgmt.requests ∧
    (s.syncArrival p rx f).mgmt.engine = s.mgmt.engine ∧
    (s.syncArrival p rx f).mgmt.portControl = s.mgmt.portControl ∧
    (s.syncArrival p rx f).mgmt.noticeSeq = s.mgmt.noticeSeq ∧
    (s.syncArrival p rx f).mgmt.epoch = s.mgmt.epoch ∧ (s.syncArrival p rx f).mgmt.drain = s.mgmt.drain ∧
    (s.syncArrival p rx f).timer.cycleCount = s.timer.cycleCount ∧
    (s.syncArrival p rx f).gen.active = s.gen.active ∧ (s.syncArrival p rx f).gen.shadow = s.gen.shadow ∧
    (s.syncArrival p rx f).gen.number = s.gen.number ∧
    (∀ x, ((s.syncArrival p rx f).port x).state = (s.port x).state) ∧
    (∀ x, ((s.syncArrival p rx f).port x).tx = (s.port x).tx) ∧
    (∀ x, ((s.syncArrival p rx f).port x).rx = (s.port x).rx) ∧
    (∀ x, ((s.syncArrival p rx f).port x).lastCheck = (s.port x).lastCheck) ∧
    (∀ x, ((s.syncArrival p rx f).port x).good = (s.port x).good) ∧
    (∀ x, ((s.syncArrival p rx f).port x).bad = (s.port x).bad) ∧
    (∀ x, ((s.syncArrival p rx f).port x).qualCount = (s.port x).qualCount) ∧
    (∀ x, ((s.syncArrival p rx f).port x).signalGood = (s.port x).signalGood) := by
  cases p <;> simp only [State.syncArrival, otherPorts, List.foldl_cons, List.foldl_nil] <;> split <;> simp

@[simp] theorem State.syncArrival_views (s : State) (p : Port) (rx : Reception) (f : SyncFrame) :
    (s.syncArrival p rx f).base = s.base := by
  simp [State.base]

@[simp] theorem State.countMatch_frame (s : State) (i : Byte) (e : StreamEntry) (a : Arrival) :
    (s.countMatch i e a).power = s.power ∧ (s.countMatch i e a).straps = s.straps ∧
    (s.countMatch i e a).refCount = s.refCount ∧ (s.countMatch i e a).pending = s.pending ∧
    (s.countMatch i e a).timer = s.timer ∧ (s.countMatch i e a).gates = s.gates ∧
    (s.countMatch i e a).retention = s.retention ∧ (s.countMatch i e a).queues = s.queues ∧
    (s.countMatch i e a).opportunities = s.opportunities ∧ (s.countMatch i e a).store = s.store ∧
    (s.countMatch i e a).gen = s.gen ∧ (s.countMatch i e a).mgmt = s.mgmt ∧
    (s.countMatch i e a).ports = s.ports := by
  simp [State.countMatch]

@[simp] theorem State.countMatch_views (s : State) (i : Byte) (e : StreamEntry) (a : Arrival) :
    (∀ x, (s.countMatch i e a).port x = s.port x) ∧ (∀ x y, (s.countMatch i e a).egress x y = s.egress x y) ∧
    (s.countMatch i e a).base = s.base := by
  simp [State.port, State.egress, State.base]

@[simp] theorem State.monitorStep_frame (s : State) (i : Byte) (e : StreamEntry) (a : Arrival) :
    (s.monitorStep i e a).1.power = s.power ∧ (s.monitorStep i e a).1.straps = s.straps ∧
    (s.monitorStep i e a).1.refCount = s.refCount ∧ (s.monitorStep i e a).1.pending = s.pending ∧
    (s.monitorStep i e a).1.timer = s.timer ∧ (s.monitorStep i e a).1.gates = s.gates ∧
    (s.monitorStep i e a).1.retention = s.retention ∧ (s.monitorStep i e a).1.queues = s.queues ∧
    (s.monitorStep i e a).1.opportunities = s.opportunities ∧ (s.monitorStep i e a).1.store = s.store ∧
    (s.monitorStep i e a).1.gen = s.gen ∧ (s.monitorStep i e a).1.mgmt = s.mgmt ∧
    (s.monitorStep i e a).1.ports = s.ports := by
  unfold State.monitorStep
  (repeat' split) <;> simp

@[simp] theorem State.monitorStep_views (s : State) (i : Byte) (e : StreamEntry) (a : Arrival) :
    (∀ x, (s.monitorStep i e a).1.port x = s.port x) ∧
    (∀ x y, (s.monitorStep i e a).1.egress x y = s.egress x y) ∧ (s.monitorStep i e a).1.base = s.base := by
  simp [State.port, State.egress, State.base]

@[simp] theorem State.captureFrame_frame (s : State) (i : Byte) (e : StreamEntry) (a : Arrival) :
    (s.captureFrame i e a).power = s.power ∧ (s.captureFrame i e a).straps = s.straps ∧
    (s.captureFrame i e a).refCount = s.refCount ∧ (s.captureFrame i e a).pending = s.pending ∧
    (s.captureFrame i e a).timer = s.timer ∧ (s.captureFrame i e a).gates = s.gates ∧
    (s.captureFrame i e a).queues = s.queues ∧ (s.captureFrame i e a).opportunities = s.opportunities ∧
    (s.captureFrame i e a).store.mem = s.store.mem ∧ (s.captureFrame i e a).gen = s.gen ∧
    (s.captureFrame i e a).mgmt.requests = s.mgmt.requests ∧
    (s.captureFrame i e a).mgmt.engine = s.mgmt.engine ∧
    (s.captureFrame i e a).mgmt.answered = s.mgmt.answered ∧
    (s.captureFrame i e a).mgmt.portControl = s.mgmt.portControl ∧
    (s.captureFrame i e a).mgmt.conditions = s.mgmt.conditions ∧
    (s.captureFrame i e a).mgmt.noticeSeq = s.mgmt.noticeSeq ∧
    (s.captureFrame i e a).mgmt.epoch = s.mgmt.epoch ∧ (s.captureFrame i e a).mgmt.drain = s.mgmt.drain ∧
    (s.captureFrame i e a).ports = s.ports := by
  unfold State.captureFrame
  (repeat' split) <;> simp

@[simp] theorem State.captureFrame_views (s : State) (i : Byte) (e : StreamEntry) (a : Arrival) :
    (∀ x, (s.captureFrame i e a).port x = s.port x) ∧
    (∀ x y, (s.captureFrame i e a).egress x y = s.egress x y) ∧ (s.captureFrame i e a).base = s.base := by
  simp [State.port, State.egress, State.base]

@[simp] theorem State.budgetStep_frame (s : State) (i : Byte) (e : StreamEntry) (a : Arrival) :
    (s.budgetStep i e a).1.power = s.power ∧ (s.budgetStep i e a).1.straps = s.straps ∧
    (s.budgetStep i e a).1.refCount = s.refCount ∧ (s.budgetStep i e a).1.pending = s.pending ∧
    (s.budgetStep i e a).1.timer = s.timer ∧ (s.budgetStep i e a).1.gates = s.gates ∧
    (s.budgetStep i e a).1.retention = s.retention ∧ (s.budgetStep i e a).1.queues = s.queues ∧
    (s.budgetStep i e a).1.opportunities = s.opportunities ∧ (s.budgetStep i e a).1.store = s.store ∧
    (s.budgetStep i e a).1.gen = s.gen ∧ (s.budgetStep i e a).1.mgmt = s.mgmt ∧
    (s.budgetStep i e a).1.ports = s.ports := by
  unfold State.budgetStep
  (repeat' split) <;> simp

@[simp] theorem State.budgetStep_views (s : State) (i : Byte) (e : StreamEntry) (a : Arrival) :
    (∀ x, (s.budgetStep i e a).1.port x = s.port x) ∧
    (∀ x y, (s.budgetStep i e a).1.egress x y = s.egress x y) ∧ (s.budgetStep i e a).1.base = s.base := by
  simp [State.port, State.egress, State.base]

@[simp] theorem State.copyDown_frame (s : State) (i : Byte) (e : StreamEntry) (c : Cls) (a : Arrival) (p : Port) :
    (s.copyDown i e c a p).1.power = s.power ∧ (s.copyDown i e c a p).1.straps = s.straps ∧
    (s.copyDown i e c a p).1.refCount = s.refCount ∧ (s.copyDown i e c a p).1.pending = s.pending ∧
    (s.copyDown i e c a p).1.timer = s.timer ∧ (s.copyDown i e c a p).1.gates = s.gates ∧
    (s.copyDown i e c a p).1.queues = s.queues ∧ (s.copyDown i e c a p).1.opportunities = s.opportunities ∧
    (s.copyDown i e c a p).1.store = s.store ∧ (s.copyDown i e c a p).1.gen = s.gen ∧
    (s.copyDown i e c a p).1.mgmt.requests = s.mgmt.requests ∧
    (s.copyDown i e c a p).1.mgmt.engine = s.mgmt.engine ∧
    (s.copyDown i e c a p).1.mgmt.answered = s.mgmt.answered ∧
    (s.copyDown i e c a p).1.mgmt.portControl = s.mgmt.portControl ∧
    (s.copyDown i e c a p).1.mgmt.conditions = s.mgmt.conditions ∧
    (s.copyDown i e c a p).1.mgmt.noticeSeq = s.mgmt.noticeSeq ∧
    (s.copyDown i e c a p).1.mgmt.epoch = s.mgmt.epoch ∧ (s.copyDown i e c a p).1.mgmt.drain = s.mgmt.drain ∧
    (s.copyDown i e c a p).1.ports = s.ports := by
  unfold State.copyDown
  (repeat' split) <;> simp

@[simp] theorem State.copyDown_views (s : State) (i : Byte) (e : StreamEntry) (c : Cls) (a : Arrival) (p : Port) :
    (∀ x, (s.copyDown i e c a p).1.port x = s.port x) ∧
    (∀ x y, (s.copyDown i e c a p).1.egress x y = s.egress x y) ∧ (s.copyDown i e c a p).1.base = s.base := by
  simp [State.port, State.egress, State.base]

@[simp] theorem State.copyStep_frame (i : Byte) (e : StreamEntry) (c : Cls) (a : Arrival) (acc : State × Nat) (p : Port) :
    (State.copyStep i e c a acc p).1.power = acc.1.power ∧
    (State.copyStep i e c a acc p).1.straps = acc.1.straps ∧
    (State.copyStep i e c a acc p).1.refCount = acc.1.refCount ∧
    (State.copyStep i e c a acc p).1.pending = acc.1.pending ∧
    (State.copyStep i e c a acc p).1.timer = acc.1.timer ∧
    (State.copyStep i e c a acc p).1.gates = acc.1.gates ∧
    (State.copyStep i e c a acc p).1.store = acc.1.store ∧ (State.copyStep i e c a acc p).1.gen = acc.1.gen ∧
    (State.copyStep i e c a acc p).1.mgmt.requests = acc.1.mgmt.requests ∧
    (State.copyStep i e c a acc p).1.mgmt.engine = acc.1.mgmt.engine ∧
    (State.copyStep i e c a acc p).1.mgmt.answered = acc.1.mgmt.answered ∧
    (State.copyStep i e c a acc p).1.mgmt.portControl = acc.1.mgmt.portControl ∧
    (State.copyStep i e c a acc p).1.mgmt.conditions = acc.1.mgmt.conditions ∧
    (State.copyStep i e c a acc p).1.mgmt.noticeSeq = acc.1.mgmt.noticeSeq ∧
    (State.copyStep i e c a acc p).1.mgmt.epoch = acc.1.mgmt.epoch ∧
    (State.copyStep i e c a acc p).1.mgmt.drain = acc.1.mgmt.drain ∧
    (State.copyStep i e c a acc p).1.ports = acc.1.ports := by
  unfold State.copyStep
  (repeat' split) <;> simp

@[simp] theorem State.copyStep_views (i : Byte) (e : StreamEntry) (c : Cls) (a : Arrival) (acc : State × Nat) (p : Port) :
    (∀ x, (State.copyStep i e c a acc p).1.port x = acc.1.port x) ∧
    (State.copyStep i e c a acc p).1.base = acc.1.base := by
  simp [State.port, State.base]

@[simp] theorem foldl_copyStep_frame (l : List Port) (i : Byte) (e : StreamEntry) (c : Cls) (a : Arrival) (acc : State × Nat) :
    (l.foldl (State.copyStep i e c a) acc).1.power = acc.1.power ∧
    (l.foldl (State.copyStep i e c a) acc).1.straps = acc.1.straps ∧
    (l.foldl (State.copyStep i e c a) acc).1.refCount = acc.1.refCount ∧
    (l.foldl (State.copyStep i e c a) acc).1.pending = acc.1.pending ∧
    (l.foldl (State.copyStep i e c a) acc).1.timer = acc.1.timer ∧
    (l.foldl (State.copyStep i e c a) acc).1.gates = acc.1.gates ∧
    (l.foldl (State.copyStep i e c a) acc).1.store = acc.1.store ∧
    (l.foldl (State.copyStep i e c a) acc).1.gen = acc.1.gen ∧
    (l.foldl (State.copyStep i e c a) acc).1.mgmt.requests = acc.1.mgmt.requests ∧
    (l.foldl (State.copyStep i e c a) acc).1.mgmt.engine = acc.1.mgmt.engine ∧
    (l.foldl (State.copyStep i e c a) acc).1.mgmt.answered = acc.1.mgmt.answered ∧
    (l.foldl (State.copyStep i e c a) acc).1.mgmt.portControl = acc.1.mgmt.portControl ∧
    (l.foldl (State.copyStep i e c a) acc).1.mgmt.conditions = acc.1.mgmt.conditions ∧
    (l.foldl (State.copyStep i e c a) acc).1.mgmt.noticeSeq = acc.1.mgmt.noticeSeq ∧
    (l.foldl (State.copyStep i e c a) acc).1.mgmt.epoch = acc.1.mgmt.epoch ∧
    (l.foldl (State.copyStep i e c a) acc).1.mgmt.drain = acc.1.mgmt.drain ∧
    (l.foldl (State.copyStep i e c a) acc).1.ports = acc.1.ports := by
  induction l generalizing acc with
  | nil => simp
  | cons x l ih => simp [ih]

@[simp] theorem foldl_copyStep_views (l : List Port) (i : Byte) (e : StreamEntry) (c : Cls) (a : Arrival) (acc : State × Nat) :
    (∀ x, (l.foldl (State.copyStep i e c a) acc).1.port x = acc.1.port x) ∧
    (l.foldl (State.copyStep i e c a) acc).1.base = acc.1.base := by
  simp [State.port, State.base]

@[simp] theorem State.forwardMatched_frame (s : State) (i : Byte) (e : StreamEntry) (c : Cls) (a : Arrival) :
    (s.forwardMatched i e c a).power = s.power ∧ (s.forwardMatched i e c a).straps = s.straps ∧
    (s.forwardMatched i e c a).refCount = s.refCount ∧ (s.forwardMatched i e c a).pending = s.pending ∧
    (s.forwardMatched i e c a).timer = s.timer ∧ (s.forwardMatched i e c a).gates = s.gates ∧
    (s.forwardMatched i e c a).store.mem = s.store.mem ∧ (s.forwardMatched i e c a).gen = s.gen ∧
    (s.forwardMatched i e c a).mgmt.requests = s.mgmt.requests ∧
    (s.forwardMatched i e c a).mgmt.engine = s.mgmt.engine ∧
    (s.forwardMatched i e c a).mgmt.answered = s.mgmt.answered ∧
    (s.forwardMatched i e c a).mgmt.portControl = s.mgmt.portControl ∧
    (s.forwardMatched i e c a).mgmt.conditions = s.mgmt.conditions ∧
    (s.forwardMatched i e c a).mgmt.noticeSeq = s.mgmt.noticeSeq ∧
    (s.forwardMatched i e c a).mgmt.epoch = s.mgmt.epoch ∧
    (s.forwardMatched i e c a).mgmt.drain = s.mgmt.drain ∧ (s.forwardMatched i e c a).ports = s.ports := by
  simp only [State.forwardMatched]
  split <;> simp

@[simp] theorem State.forwardMatched_views (s : State) (i : Byte) (e : StreamEntry) (c : Cls) (a : Arrival) :
    (∀ x, (s.forwardMatched i e c a).port x = s.port x) ∧ (s.forwardMatched i e c a).base = s.base := by
  simp [State.port, State.base]

@[simp] theorem State.budgetAndForward_frame (s : State) (i : Byte) (e : StreamEntry) (a : Arrival) :
    (s.budgetAndForward i e a).power = s.power ∧ (s.budgetAndForward i e a).straps = s.straps ∧
    (s.budgetAndForward i e a).refCount = s.refCount ∧ (s.budgetAndForward i e a).pending = s.pending ∧
    (s.budgetAndForward i e a).timer = s.timer ∧ (s.budgetAndForward i e a).gates = s.gates ∧
    (s.budgetAndForward i e a).store.mem = s.store.mem ∧ (s.budgetAndForward i e a).gen = s.gen ∧
    (s.budgetAndForward i e a).mgmt.requests = s.mgmt.requests ∧
    (s.budgetAndForward i e a).mgmt.engine = s.mgmt.engine ∧
    (s.budgetAndForward i e a).mgmt.answered = s.mgmt.answered ∧
    (s.budgetAndForward i e a).mgmt.portControl = s.mgmt.portControl ∧
    (s.budgetAndForward i e a).mgmt.conditions = s.mgmt.conditions ∧
    (s.budgetAndForward i e a).mgmt.noticeSeq = s.mgmt.noticeSeq ∧
    (s.budgetAndForward i e a).mgmt.epoch = s.mgmt.epoch ∧
    (s.budgetAndForward i e a).mgmt.drain = s.mgmt.drain ∧ (s.budgetAndForward i e a).ports = s.ports := by
  unfold State.budgetAndForward
  (repeat' split) <;> simp

@[simp] theorem State.budgetAndForward_views (s : State) (i : Byte) (e : StreamEntry) (a : Arrival) :
    (∀ x, (s.budgetAndForward i e a).port x = s.port x) ∧ (s.budgetAndForward i e a).base = s.base := by
  simp [State.port, State.base]

@[simp] theorem State.actionStep_frame (s : State) (i : Byte) (e : StreamEntry) (a : Arrival) :
    (s.actionStep i e a).power = s.power ∧ (s.actionStep i e a).straps = s.straps ∧
    (s.actionStep i e a).refCount = s.refCount ∧ (s.actionStep i e a).pending = s.pending ∧
    (s.actionStep i e a).timer = s.timer ∧ (s.actionStep i e a).gates = s.gates ∧
    (s.actionStep i e a).store.mem = s.store.mem ∧ (s.actionStep i e a).gen = s.gen ∧
    (s.actionStep i e a).mgmt.requests = s.mgmt.requests ∧ (s.actionStep i e a).mgmt.engine = s.mgmt.engine ∧
    (s.actionStep i e a).mgmt.answered = s.mgmt.answered ∧
    (s.actionStep i e a).mgmt.portControl = s.mgmt.portControl ∧
    (s.actionStep i e a).mgmt.conditions = s.mgmt.conditions ∧
    (s.actionStep i e a).mgmt.noticeSeq = s.mgmt.noticeSeq ∧ (s.actionStep i e a).mgmt.epoch = s.mgmt.epoch ∧
    (s.actionStep i e a).mgmt.drain = s.mgmt.drain ∧ (s.actionStep i e a).ports = s.ports := by
  unfold State.actionStep
  (repeat' split) <;> simp

@[simp] theorem State.actionStep_views (s : State) (i : Byte) (e : StreamEntry) (a : Arrival) :
    (∀ x, (s.actionStep i e a).port x = s.port x) ∧ (s.actionStep i e a).base = s.base := by
  simp [State.port, State.base]

@[simp] theorem State.classifyMatched_frame (s : State) (i : Byte) (e : StreamEntry) (a : Arrival) :
    (s.classifyMatched i e a).power = s.power ∧ (s.classifyMatched i e a).straps = s.straps ∧
    (s.classifyMatched i e a).refCount = s.refCount ∧ (s.classifyMatched i e a).pending = s.pending ∧
    (s.classifyMatched i e a).timer = s.timer ∧ (s.classifyMatched i e a).gates = s.gates ∧
    (s.classifyMatched i e a).store.mem = s.store.mem ∧ (s.classifyMatched i e a).gen = s.gen ∧
    (s.classifyMatched i e a).mgmt.requests = s.mgmt.requests ∧
    (s.classifyMatched i e a).mgmt.engine = s.mgmt.engine ∧
    (s.classifyMatched i e a).mgmt.answered = s.mgmt.answered ∧
    (s.classifyMatched i e a).mgmt.portControl = s.mgmt.portControl ∧
    (s.classifyMatched i e a).mgmt.conditions = s.mgmt.conditions ∧
    (s.classifyMatched i e a).mgmt.noticeSeq = s.mgmt.noticeSeq ∧
    (s.classifyMatched i e a).mgmt.epoch = s.mgmt.epoch ∧ (s.classifyMatched i e a).mgmt.drain = s.mgmt.drain ∧
    (s.classifyMatched i e a).ports = s.ports := by
  simp only [State.classifyMatched]
  (repeat' split) <;> simp

@[simp] theorem State.classifyMatched_views (s : State) (i : Byte) (e : StreamEntry) (a : Arrival) :
    (∀ x, (s.classifyMatched i e a).port x = s.port x) ∧ (s.classifyMatched i e a).base = s.base := by
  simp [State.port, State.base]

@[simp] theorem State.unmatchedCopy_frame (a : Arrival) (acc : State × Nat) (p : Port) :
    (State.unmatchedCopy a acc p).1.power = acc.1.power ∧
    (State.unmatchedCopy a acc p).1.straps = acc.1.straps ∧
    (State.unmatchedCopy a acc p).1.refCount = acc.1.refCount ∧
    (State.unmatchedCopy a acc p).1.pending = acc.1.pending ∧
    (State.unmatchedCopy a acc p).1.timer = acc.1.timer ∧
    (State.unmatchedCopy a acc p).1.streams = acc.1.streams ∧
    (State.unmatchedCopy a acc p).1.gates = acc.1.gates ∧
    (State.unmatchedCopy a acc p).1.retention = acc.1.retention ∧
    (State.unmatchedCopy a acc p).1.store = acc.1.store ∧ (State.unmatchedCopy a acc p).1.gen = acc.1.gen ∧
    (State.unmatchedCopy a acc p).1.mgmt = acc.1.mgmt ∧
    (State.unmatchedCopy a acc p).1.ports = acc.1.ports := by
  unfold State.unmatchedCopy
  (repeat' split) <;> simp

@[simp] theorem State.unmatchedCopy_views (a : Arrival) (acc : State × Nat) (p : Port) :
    (∀ x, (State.unmatchedCopy a acc p).1.port x = acc.1.port x) ∧
    (State.unmatchedCopy a acc p).1.base = acc.1.base := by
  simp [State.port, State.base]

@[simp] theorem foldl_unmatchedCopy_frame (l : List Port) (a : Arrival) (acc : State × Nat) :
    (l.foldl (State.unmatchedCopy a) acc).1.power = acc.1.power ∧
    (l.foldl (State.unmatchedCopy a) acc).1.straps = acc.1.straps ∧
    (l.foldl (State.unmatchedCopy a) acc).1.refCount = acc.1.refCount ∧
    (l.foldl (State.unmatchedCopy a) acc).1.pending = acc.1.pending ∧
    (l.foldl (State.unmatchedCopy a) acc).1.timer = acc.1.timer ∧
    (l.foldl (State.unmatchedCopy a) acc).1.streams = acc.1.streams ∧
    (l.foldl (State.unmatchedCopy a) acc).1.gates = acc.1.gates ∧
    (l.foldl (State.unmatchedCopy a) acc).1.retention = acc.1.retention ∧
    (l.foldl (State.unmatchedCopy a) acc).1.store = acc.1.store ∧
    (l.foldl (State.unmatchedCopy a) acc).1.gen = acc.1.gen ∧
    (l.foldl (State.unmatchedCopy a) acc).1.mgmt = acc.1.mgmt ∧
    (l.foldl (State.unmatchedCopy a) acc).1.ports = acc.1.ports := by
  induction l generalizing acc with
  | nil => simp
  | cons x l ih => simp [ih]

@[simp] theorem foldl_unmatchedCopy_views (l : List Port) (a : Arrival) (acc : State × Nat) :
    (∀ x, (l.foldl (State.unmatchedCopy a) acc).1.port x = acc.1.port x) ∧
    (l.foldl (State.unmatchedCopy a) acc).1.base = acc.1.base := by
  simp [State.port, State.base]

@[simp] theorem State.classifyUnmatched_frame (s : State) (a : Arrival) :
    (s.classifyUnmatched a).power = s.power ∧ (s.classifyUnmatched a).straps = s.straps ∧
    (s.classifyUnmatched a).refCount = s.refCount ∧ (s.classifyUnmatched a).pending = s.pending ∧
    (s.classifyUnmatched a).timer = s.timer ∧ (s.classifyUnmatched a).streams = s.streams ∧
    (s.classifyUnmatched a).gates = s.gates ∧ (s.classifyUnmatched a).retention = s.retention ∧
    (s.classifyUnmatched a).store.mem = s.store.mem ∧ (s.classifyUnmatched a).gen = s.gen ∧
    (s.classifyUnmatched a).mgmt = s.mgmt ∧ (∀ x, ((s.classifyUnmatched a).port x).state = (s.port x).state) ∧
    (∀ x, ((s.classifyUnmatched a).port x).tx = (s.port x).tx) ∧
    (∀ x, ((s.classifyUnmatched a).port x).rx = (s.port x).rx) ∧
    (∀ x, ((s.classifyUnmatched a).port x).holder = (s.port x).holder) ∧
    (∀ x, ((s.classifyUnmatched a).port x).lastCheck = (s.port x).lastCheck) ∧
    (∀ x, ((s.classifyUnmatched a).port x).good = (s.port x).good) ∧
    (∀ x, ((s.classifyUnmatched a).port x).bad = (s.port x).bad) ∧
    (∀ x, ((s.classifyUnmatched a).port x).qualCount = (s.port x).qualCount) ∧
    (∀ x, ((s.classifyUnmatched a).port x).signalGood = (s.port x).signalGood) := by
  simp only [State.classifyUnmatched]
  (repeat' split) <;> simp

@[simp] theorem State.classifyUnmatched_views (s : State) (a : Arrival) :
    (s.classifyUnmatched a).base = s.base := by
  simp [State.base]

@[simp] theorem State.classify_frame (s : State) (a : Arrival) :
    (s.classify a).power = s.power ∧ (s.classify a).straps = s.straps ∧ (s.classify a).refCount = s.refCount ∧
    (s.classify a).pending = s.pending ∧ (s.classify a).timer = s.timer ∧ (s.classify a).gates = s.gates ∧
    (s.classify a).gen = s.gen ∧ (s.classify a).mgmt.engine = s.mgmt.engine ∧
    (s.classify a).mgmt.answered = s.mgmt.answered ∧ (s.classify a).mgmt.portControl = s.mgmt.portControl ∧
    (s.classify a).mgmt.conditions = s.mgmt.conditions ∧ (s.classify a).mgmt.noticeSeq = s.mgmt.noticeSeq ∧
    (s.classify a).mgmt.epoch = s.mgmt.epoch ∧ (s.classify a).mgmt.drain = s.mgmt.drain ∧
    (∀ x, ((s.classify a).port x).state = (s.port x).state) ∧
    (∀ x, ((s.classify a).port x).tx = (s.port x).tx) ∧ (∀ x, ((s.classify a).port x).rx = (s.port x).rx) ∧
    (∀ x, ((s.classify a).port x).holder = (s.port x).holder) ∧
    (∀ x, ((s.classify a).port x).lastCheck = (s.port x).lastCheck) ∧
    (∀ x, ((s.classify a).port x).good = (s.port x).good) ∧
    (∀ x, ((s.classify a).port x).bad = (s.port x).bad) ∧
    (∀ x, ((s.classify a).port x).qualCount = (s.port x).qualCount) ∧
    (∀ x, ((s.classify a).port x).signalGood = (s.port x).signalGood) := by
  unfold State.classify
  (repeat' split) <;> simp

@[simp] theorem State.classify_views (s : State) (a : Arrival) :
    (s.classify a).base = s.base := by
  simp [State.base]

@[simp] theorem State.startReception_frame (s : State) (p : Port) :
    (s.startReception p).power = s.power ∧ (s.startReception p).straps = s.straps ∧
    (s.startReception p).refCount = s.refCount ∧ (s.startReception p).pending = s.pending ∧
    (s.startReception p).timer = s.timer ∧ (s.startReception p).streams = s.streams ∧
    (s.startReception p).gates = s.gates ∧ (s.startReception p).retention = s.retention ∧
    (s.startReception p).queues = s.queues ∧ (s.startReception p).opportunities = s.opportunities ∧
    (s.startReception p).store.mem = s.store.mem ∧ (s.startReception p).gen = s.gen ∧
    (s.startReception p).mgmt = s.mgmt ∧ (∀ x, ((s.startReception p).port x).state = (s.port x).state) ∧
    (∀ x, ((s.startReception p).port x).counters = (s.port x).counters) ∧
    (∀ x, ((s.startReception p).port x).tx = (s.port x).tx) ∧
    (∀ x, ((s.startReception p).port x).holder = (s.port x).holder) ∧
    (∀ x, ((s.startReception p).port x).lastCheck = (s.port x).lastCheck) ∧
    (∀ x, ((s.startReception p).port x).good = (s.port x).good) ∧
    (∀ x, ((s.startReception p).port x).bad = (s.port x).bad) ∧
    (∀ x, ((s.startReception p).port x).qualCount = (s.port x).qualCount) ∧
    (∀ x, ((s.startReception p).port x).signalGood = (s.port x).signalGood) := by
  simp [State.startReception]

@[simp] theorem State.startReception_views (s : State) (p : Port) :
    (∀ x y, (s.startReception p).egress x y = s.egress x y) ∧ (s.startReception p).base = s.base := by
  simp [State.egress, State.base]

@[simp] theorem State.receiveKind_frame (s : State) (p : Port) (k : Byte) :
    (s.receiveKind p k).power = s.power ∧ (s.receiveKind p k).straps = s.straps ∧
    (s.receiveKind p k).refCount = s.refCount ∧ (s.receiveKind p k).pending = s.pending ∧
    (s.receiveKind p k).timer = s.timer ∧ (s.receiveKind p k).streams = s.streams ∧
    (s.receiveKind p k).gates = s.gates ∧ (s.receiveKind p k).retention = s.retention ∧
    (s.receiveKind p k).queues = s.queues ∧ (s.receiveKind p k).opportunities = s.opportunities ∧
    (s.receiveKind p k).store.mem = s.store.mem ∧ (s.receiveKind p k).gen = s.gen ∧
    (s.receiveKind p k).mgmt = s.mgmt ∧ (∀ x, ((s.receiveKind p k).port x).state = (s.port x).state) ∧
    (∀ x, ((s.receiveKind p k).port x).counters = (s.port x).counters) ∧
    (∀ x, ((s.receiveKind p k).port x).tx = (s.port x).tx) ∧
    (∀ x, ((s.receiveKind p k).port x).holder = (s.port x).holder) ∧
    (∀ x, ((s.receiveKind p k).port x).lastCheck = (s.port x).lastCheck) ∧
    (∀ x, ((s.receiveKind p k).port x).good = (s.port x).good) ∧
    (∀ x, ((s.receiveKind p k).port x).bad = (s.port x).bad) ∧
    (∀ x, ((s.receiveKind p k).port x).qualCount = (s.port x).qualCount) ∧
    (∀ x, ((s.receiveKind p k).port x).signalGood = (s.port x).signalGood) := by
  unfold State.receiveKind
  (repeat' split) <;> simp

@[simp] theorem State.receiveKind_views (s : State) (p : Port) (k : Byte) :
    (∀ x y, (s.receiveKind p k).egress x y = s.egress x y) ∧ (s.receiveKind p k).base = s.base := by
  simp [State.egress, State.base]

@[simp] theorem State.handOn_frame (s : State) (p : Port) (rx : Reception) (k : Byte) (bs : List Byte) :
    (s.handOn p rx k bs).power = s.power ∧ (s.handOn p rx k bs).straps = s.straps ∧
    (s.handOn p rx k bs).refCount = s.refCount ∧ (s.handOn p rx k bs).pending = s.pending ∧
    (s.handOn p rx k bs).mgmt.engine = s.mgmt.engine ∧
    (s.handOn p rx k bs).mgmt.portControl = s.mgmt.portControl ∧
    (s.handOn p rx k bs).mgmt.noticeSeq = s.mgmt.noticeSeq ∧ (s.handOn p rx k bs).mgmt.epoch = s.mgmt.epoch ∧
    (s.handOn p rx k bs).mgmt.drain = s.mgmt.drain ∧
    (s.handOn p rx k bs).timer.cycleCount = s.timer.cycleCount ∧
    (s.handOn p rx k bs).gen.active = s.gen.active ∧ (s.handOn p rx k bs).gen.shadow = s.gen.shadow ∧
    (s.handOn p rx k bs).gen.number = s.gen.number ∧
    (∀ x, ((s.handOn p rx k bs).port x).state = (s.port x).state) ∧
    (∀ x, ((s.handOn p rx k bs).port x).tx = (s.port x).tx) ∧
    (∀ x, ((s.handOn p rx k bs).port x).rx = (s.port x).rx) ∧
    (∀ x, ((s.handOn p rx k bs).port x).lastCheck = (s.port x).lastCheck) ∧
    (∀ x, ((s.handOn p rx k bs).port x).good = (s.port x).good) ∧
    (∀ x, ((s.handOn p rx k bs).port x).bad = (s.port x).bad) ∧
    (∀ x, ((s.handOn p rx k bs).port x).qualCount = (s.port x).qualCount) ∧
    (∀ x, ((s.handOn p rx k bs).port x).signalGood = (s.port x).signalGood) := by
  unfold State.handOn
  (repeat' split) <;> simp

@[simp] theorem State.handOn_views (s : State) (p : Port) (rx : Reception) (k : Byte) (bs : List Byte) :
    (s.handOn p rx k bs).base = s.base := by
  simp [State.base]

@[simp] theorem State.storeBytes_frame (s : State) (rx : Reception) (bs : List Byte) :
    (s.storeBytes rx bs).power = s.power ∧ (s.storeBytes rx bs).straps = s.straps ∧
    (s.storeBytes rx bs).refCount = s.refCount ∧ (s.storeBytes rx bs).pending = s.pending ∧
    (s.storeBytes rx bs).timer = s.timer ∧ (s.storeBytes rx bs).streams = s.streams ∧
    (s.storeBytes rx bs).gates = s.gates ∧ (s.storeBytes rx bs).retention = s.retention ∧
    (s.storeBytes rx bs).queues = s.queues ∧ (s.storeBytes rx bs).opportunities = s.opportunities ∧
    (s.storeBytes rx bs).store.count = s.store.count ∧ (s.storeBytes rx bs).store.free = s.store.free ∧
    (s.storeBytes rx bs).gen = s.gen ∧ (s.storeBytes rx bs).mgmt = s.mgmt ∧
    (s.storeBytes rx bs).ports = s.ports := by
  unfold State.storeBytes
  (repeat' split) <;> simp

@[simp] theorem State.storeBytes_views (s : State) (rx : Reception) (bs : List Byte) :
    (∀ x, (s.storeBytes rx bs).port x = s.port x) ∧ (∀ x y, (s.storeBytes rx bs).egress x y = s.egress x y) ∧
    (s.storeBytes rx bs).base = s.base := by
  simp [State.port, State.egress, State.base]

@[simp] theorem State.checkAndHandOn_frame (s : State) (p : Port) (rx : Reception) (k : Byte) (bs : List Byte) :
    (s.checkAndHandOn p rx k bs).power = s.power ∧ (s.checkAndHandOn p rx k bs).straps = s.straps ∧
    (s.checkAndHandOn p rx k bs).refCount = s.refCount ∧ (s.checkAndHandOn p rx k bs).pending = s.pending ∧
    (s.checkAndHandOn p rx k bs).mgmt.engine = s.mgmt.engine ∧
    (s.checkAndHandOn p rx k bs).mgmt.portControl = s.mgmt.portControl ∧
    (s.checkAndHandOn p rx k bs).mgmt.noticeSeq = s.mgmt.noticeSeq ∧
    (s.checkAndHandOn p rx k bs).mgmt.epoch = s.mgmt.epoch ∧
    (s.checkAndHandOn p rx k bs).mgmt.drain = s.mgmt.drain ∧
    (s.checkAndHandOn p rx k bs).timer.cycleCount = s.timer.cycleCount ∧
    (s.checkAndHandOn p rx k bs).gen.active = s.gen.active ∧
    (s.checkAndHandOn p rx k bs).gen.shadow = s.gen.shadow ∧
    (s.checkAndHandOn p rx k bs).gen.number = s.gen.number ∧
    (∀ x, ((s.checkAndHandOn p rx k bs).port x).state = (s.port x).state) ∧
    (∀ x, ((s.checkAndHandOn p rx k bs).port x).tx = (s.port x).tx) ∧
    (∀ x, ((s.checkAndHandOn p rx k bs).port x).rx = (s.port x).rx) ∧
    (∀ x, ((s.checkAndHandOn p rx k bs).port x).lastCheck = (s.port x).lastCheck) ∧
    (∀ x, ((s.checkAndHandOn p rx k bs).port x).good = (s.port x).good) ∧
    (∀ x, ((s.checkAndHandOn p rx k bs).port x).bad = (s.port x).bad) ∧
    (∀ x, ((s.checkAndHandOn p rx k bs).port x).qualCount = (s.port x).qualCount) ∧
    (∀ x, ((s.checkAndHandOn p rx k bs).port x).signalGood = (s.port x).signalGood) := by
  simp only [State.checkAndHandOn]
  split <;> simp

@[simp] theorem State.checkAndHandOn_views (s : State) (p : Port) (rx : Reception) (k : Byte) (bs : List Byte) :
    (s.checkAndHandOn p rx k bs).base = s.base := by
  simp [State.base]

@[simp] theorem State.finishKind_frame (s : State) (p : Port) (bs : List Byte) :
    (s.finishKind p bs).power = s.power ∧ (s.finishKind p bs).straps = s.straps ∧
    (s.finishKind p bs).refCount = s.refCount ∧ (s.finishKind p bs).pending = s.pending ∧
    (s.finishKind p bs).timer = s.timer ∧ (s.finishKind p bs).streams = s.streams ∧
    (s.finishKind p bs).gates = s.gates ∧ (s.finishKind p bs).retention = s.retention ∧
    (s.finishKind p bs).queues = s.queues ∧ (s.finishKind p bs).opportunities = s.opportunities ∧
    (s.finishKind p bs).store.mem = s.store.mem ∧ (s.finishKind p bs).gen = s.gen ∧
    (s.finishKind p bs).mgmt = s.mgmt ∧ (∀ x, ((s.finishKind p bs).port x).state = (s.port x).state) ∧
    (∀ x, ((s.finishKind p bs).port x).counters = (s.port x).counters) ∧
    (∀ x, ((s.finishKind p bs).port x).tx = (s.port x).tx) ∧
    (∀ x, ((s.finishKind p bs).port x).holder = (s.port x).holder) ∧
    (∀ x, ((s.finishKind p bs).port x).lastCheck = (s.port x).lastCheck) ∧
    (∀ x, ((s.finishKind p bs).port x).good = (s.port x).good) ∧
    (∀ x, ((s.finishKind p bs).port x).bad = (s.port x).bad) ∧
    (∀ x, ((s.finishKind p bs).port x).qualCount = (s.port x).qualCount) ∧
    (∀ x, ((s.finishKind p bs).port x).signalGood = (s.port x).signalGood) := by
  unfold State.finishKind
  (repeat' split) <;> simp

@[simp] theorem State.finishKind_views (s : State) (p : Port) (bs : List Byte) :
    (∀ x y, (s.finishKind p bs).egress x y = s.egress x y) ∧ (s.finishKind p bs).base = s.base := by
  simp [State.egress, State.base]

@[simp] theorem State.endReception_frame (s : State) (p : Port) (bs : List Byte) :
    (s.endReception p bs).power = s.power ∧ (s.endReception p bs).straps = s.straps ∧
    (s.endReception p bs).refCount = s.refCount ∧ (s.endReception p bs).pending = s.pending ∧
    (s.endReception p bs).mgmt.engine = s.mgmt.engine ∧
    (s.endReception p bs).mgmt.portControl = s.mgmt.portControl ∧
    (s.endReception p bs).mgmt.noticeSeq = s.mgmt.noticeSeq ∧ (s.endReception p bs).mgmt.epoch = s.mgmt.epoch ∧
    (s.endReception p bs).mgmt.drain = s.mgmt.drain ∧
    (s.endReception p bs).timer.cycleCount = s.timer.cycleCount ∧
    (s.endReception p bs).gen.active = s.gen.active ∧ (s.endReception p bs).gen.shadow = s.gen.shadow ∧
    (s.endReception p bs).gen.number = s.gen.number ∧
    (∀ x, ((s.endReception p bs).port x).state = (s.port x).state) ∧
    (∀ x, ((s.endReception p bs).port x).tx = (s.port x).tx) ∧
    (∀ x, ((s.endReception p bs).port x).lastCheck = (s.port x).lastCheck) ∧
    (∀ x, ((s.endReception p bs).port x).good = (s.port x).good) ∧
    (∀ x, ((s.endReception p bs).port x).bad = (s.port x).bad) ∧
    (∀ x, ((s.endReception p bs).port x).qualCount = (s.port x).qualCount) ∧
    (∀ x, ((s.endReception p bs).port x).signalGood = (s.port x).signalGood) := by
  simp only [State.endReception]
  (repeat' split) <;> simp

@[simp] theorem State.endReception_views (s : State) (p : Port) (bs : List Byte) :
    (s.endReception p bs).base = s.base := by
  simp [State.base]

@[simp] theorem State.cutTransmission_frame (s : State) (p : Port) :
    (s.cutTransmission p).power = s.power ∧ (s.cutTransmission p).straps = s.straps ∧
    (s.cutTransmission p).refCount = s.refCount ∧ (s.cutTransmission p).pending = s.pending ∧
    (s.cutTransmission p).timer = s.timer ∧ (s.cutTransmission p).gates = s.gates ∧
    (s.cutTransmission p).queues = s.queues ∧ (s.cutTransmission p).opportunities = s.opportunities ∧
    (s.cutTransmission p).store.mem = s.store.mem ∧ (s.cutTransmission p).gen = s.gen ∧
    (s.cutTransmission p).mgmt.requests = s.mgmt.requests ∧ (s.cutTransmission p).mgmt.engine = s.mgmt.engine ∧
    (s.cutTransmission p).mgmt.answered = s.mgmt.answered ∧
    (s.cutTransmission p).mgmt.portControl = s.mgmt.portControl ∧
    (s.cutTransmission p).mgmt.conditions = s.mgmt.conditions ∧
    (s.cutTransmission p).mgmt.noticeSeq = s.mgmt.noticeSeq ∧ (s.cutTransmission p).mgmt.epoch = s.mgmt.epoch ∧
    (s.cutTransmission p).mgmt.drain = s.mgmt.drain ∧
    (∀ x, ((s.cutTransmission p).port x).state = (s.port x).state) ∧
    (∀ x, ((s.cutTransmission p).port x).rx = (s.port x).rx) ∧
    (∀ x, ((s.cutTransmission p).port x).holder = (s.port x).holder) ∧
    (∀ x, ((s.cutTransmission p).port x).lastCheck = (s.port x).lastCheck) ∧
    (∀ x, ((s.cutTransmission p).port x).good = (s.port x).good) ∧
    (∀ x, ((s.cutTransmission p).port x).bad = (s.port x).bad) ∧
    (∀ x, ((s.cutTransmission p).port x).qualCount = (s.port x).qualCount) ∧
    (∀ x, ((s.cutTransmission p).port x).signalGood = (s.port x).signalGood) := by
  simp only [State.cutTransmission]
  (repeat' split) <;> simp

@[simp] theorem State.cutTransmission_views (s : State) (p : Port) :
    (∀ x y, (s.cutTransmission p).egress x y = s.egress x y) ∧ (s.cutTransmission p).base = s.base := by
  simp [State.egress, State.base]

@[simp] theorem State.losePort_frame (s : State) (p : Port) :
    (s.losePort p).power = s.power ∧ (s.losePort p).straps = s.straps ∧ (s.losePort p).refCount = s.refCount ∧
    (s.losePort p).pending = s.pending ∧ (s.losePort p).timer = s.timer ∧ (s.losePort p).gates = s.gates ∧
    (s.losePort p).opportunities = s.opportunities ∧ (s.losePort p).store.mem = s.store.mem ∧
    (s.losePort p).gen = s.gen ∧ (s.losePort p).mgmt.requests = s.mgmt.requests ∧
    (s.losePort p).mgmt.engine = s.mgmt.engine ∧ (s.losePort p).mgmt.answered = s.mgmt.answered ∧
    (s.losePort p).mgmt.portControl = s.mgmt.portControl ∧ (s.losePort p).mgmt.conditions = s.mgmt.conditions ∧
    (s.losePort p).mgmt.noticeSeq = s.mgmt.noticeSeq ∧ (s.losePort p).mgmt.epoch = s.mgmt.epoch ∧
    (s.losePort p).mgmt.drain = s.mgmt.drain ∧
    (∀ x, ((s.losePort p).port x).lastCheck = (s.port x).lastCheck) ∧
    (∀ x, ((s.losePort p).port x).qualCount = (s.port x).qualCount) ∧
    (∀ x, ((s.losePort p).port x).signalGood = (s.port x).signalGood) := by
  simp [State.losePort]

@[simp] theorem State.losePort_views (s : State) (p : Port) :
    (s.losePort p).base = s.base := by
  simp [State.base]

@[simp] theorem State.bringUp_frame (s : State) (p : Port) :
    (s.bringUp p).power = s.power ∧ (s.bringUp p).straps = s.straps ∧ (s.bringUp p).refCount = s.refCount ∧
    (s.bringUp p).pending = s.pending ∧ (s.bringUp p).timer = s.timer ∧ (s.bringUp p).streams = s.streams ∧
    (s.bringUp p).gates = s.gates ∧ (s.bringUp p).retention = s.retention ∧ (s.bringUp p).gen = s.gen ∧
    (s.bringUp p).mgmt.requests = s.mgmt.requests ∧ (s.bringUp p).mgmt.engine = s.mgmt.engine ∧
    (s.bringUp p).mgmt.noticeSeq = s.mgmt.noticeSeq ∧ (s.bringUp p).mgmt.epoch = s.mgmt.epoch ∧
    (s.bringUp p).mgmt.drain = s.mgmt.drain ∧ (∀ x, ((s.bringUp p).port x).tx = (s.port x).tx) ∧
    (∀ x, ((s.bringUp p).port x).rx = (s.port x).rx) ∧
    (∀ x, ((s.bringUp p).port x).holder = (s.port x).holder) ∧
    (∀ x, ((s.bringUp p).port x).lastCheck = (s.port x).lastCheck) ∧
    (∀ x, ((s.bringUp p).port x).signalGood = (s.port x).signalGood) := by
  simp only [State.bringUp]
  split <;> simp

@[simp] theorem State.bringUp_views (s : State) (p : Port) :
    (s.bringUp p).base = s.base := by
  simp [State.base]

@[simp] theorem State.countQualification_frame (s : State) (p : Port) :
    (s.countQualification p).power = s.power ∧ (s.countQualification p).straps = s.straps ∧
    (s.countQualification p).refCount = s.refCount ∧ (s.countQualification p).pending = s.pending ∧
    (s.countQualification p).timer = s.timer ∧ (s.countQualification p).streams = s.streams ∧
    (s.countQualification p).gates = s.gates ∧ (s.countQualification p).retention = s.retention ∧
    (s.countQualification p).gen = s.gen ∧ (s.countQualification p).mgmt.requests = s.mgmt.requests ∧
    (s.countQualification p).mgmt.engine = s.mgmt.engine ∧
    (s.countQualification p).mgmt.noticeSeq = s.mgmt.noticeSeq ∧
    (s.countQualification p).mgmt.epoch = s.mgmt.epoch ∧ (s.countQualification p).mgmt.drain = s.mgmt.drain ∧
    (∀ x, ((s.countQualification p).port x).tx = (s.port x).tx) ∧
    (∀ x, ((s.countQualification p).port x).rx = (s.port x).rx) ∧
    (∀ x, ((s.countQualification p).port x).holder = (s.port x).holder) ∧
    (∀ x, ((s.countQualification p).port x).lastCheck = (s.port x).lastCheck) ∧
    (∀ x, ((s.countQualification p).port x).good = (s.port x).good) ∧
    (∀ x, ((s.countQualification p).port x).bad = (s.port x).bad) ∧
    (∀ x, ((s.countQualification p).port x).signalGood = (s.port x).signalGood) := by
  simp only [State.countQualification]
  (repeat' split) <;> simp

@[simp] theorem State.countQualification_views (s : State) (p : Port) :
    (s.countQualification p).base = s.base := by
  simp [State.base]

@[simp] theorem State.checkForUp_frame (s : State) (p : Port) (g : Bool) :
    (s.checkForUp p g).power = s.power ∧ (s.checkForUp p g).straps = s.straps ∧
    (s.checkForUp p g).refCount = s.refCount ∧ (s.checkForUp p g).pending = s.pending ∧
    (s.checkForUp p g).timer = s.timer ∧ (s.checkForUp p g).streams = s.streams ∧
    (s.checkForUp p g).gates = s.gates ∧ (s.checkForUp p g).retention = s.retention ∧
    (s.checkForUp p g).gen = s.gen ∧ (s.checkForUp p g).mgmt.requests = s.mgmt.requests ∧
    (s.checkForUp p g).mgmt.engine = s.mgmt.engine ∧ (s.checkForUp p g).mgmt.noticeSeq = s.mgmt.noticeSeq ∧
    (s.checkForUp p g).mgmt.epoch = s.mgmt.epoch ∧ (s.checkForUp p g).mgmt.drain = s.mgmt.drain ∧
    (∀ x, ((s.checkForUp p g).port x).tx = (s.port x).tx) ∧
    (∀ x, ((s.checkForUp p g).port x).rx = (s.port x).rx) ∧
    (∀ x, ((s.checkForUp p g).port x).holder = (s.port x).holder) ∧
    (∀ x, ((s.checkForUp p g).port x).lastCheck = (s.port x).lastCheck) ∧
    (∀ x, ((s.checkForUp p g).port x).signalGood = (s.port x).signalGood) := by
  simp only [State.checkForUp]
  (repeat' split) <;> simp

@[simp] theorem State.checkForUp_views (s : State) (p : Port) (g : Bool) :
    (s.checkForUp p g).base = s.base := by
  simp [State.base]

@[simp] theorem State.checkForLoss_frame (s : State) (p : Port) (g : Bool) :
    (s.checkForLoss p g).power = s.power ∧ (s.checkForLoss p g).straps = s.straps ∧
    (s.checkForLoss p g).refCount = s.refCount ∧ (s.checkForLoss p g).pending = s.pending ∧
    (s.checkForLoss p g).timer = s.timer ∧ (s.checkForLoss p g).gates = s.gates ∧
    (s.checkForLoss p g).opportunities = s.opportunities ∧ (s.checkForLoss p g).store.mem = s.store.mem ∧
    (s.checkForLoss p g).gen = s.gen ∧ (s.checkForLoss p g).mgmt.requests = s.mgmt.requests ∧
    (s.checkForLoss p g).mgmt.engine = s.mgmt.engine ∧ (s.checkForLoss p g).mgmt.answered = s.mgmt.answered ∧
    (s.checkForLoss p g).mgmt.portControl = s.mgmt.portControl ∧
    (s.checkForLoss p g).mgmt.conditions = s.mgmt.conditions ∧
    (s.checkForLoss p g).mgmt.noticeSeq = s.mgmt.noticeSeq ∧ (s.checkForLoss p g).mgmt.epoch = s.mgmt.epoch ∧
    (s.checkForLoss p g).mgmt.drain = s.mgmt.drain ∧
    (∀ x, ((s.checkForLoss p g).port x).lastCheck = (s.port x).lastCheck) ∧
    (∀ x, ((s.checkForLoss p g).port x).qualCount = (s.port x).qualCount) ∧
    (∀ x, ((s.checkForLoss p g).port x).signalGood = (s.port x).signalGood) := by
  simp only [State.checkForLoss]
  (repeat' split) <;> simp

@[simp] theorem State.checkForLoss_views (s : State) (p : Port) (g : Bool) :
    (s.checkForLoss p g).base = s.base := by
  simp [State.base]

@[simp] theorem State.linkCheck_frame (s : State) (p : Port) (g : Bool) :
    (s.linkCheck p g).power = s.power ∧ (s.linkCheck p g).straps = s.straps ∧
    (s.linkCheck p g).refCount = s.refCount ∧ (s.linkCheck p g).pending = s.pending ∧
    (s.linkCheck p g).timer = s.timer ∧ (s.linkCheck p g).gates = s.gates ∧ (s.linkCheck p g).gen = s.gen ∧
    (s.linkCheck p g).mgmt.requests = s.mgmt.requests ∧ (s.linkCheck p g).mgmt.engine = s.mgmt.engine ∧
    (s.linkCheck p g).mgmt.noticeSeq = s.mgmt.noticeSeq ∧ (s.linkCheck p g).mgmt.epoch = s.mgmt.epoch ∧
    (s.linkCheck p g).mgmt.drain = s.mgmt.drain := by
  simp only [State.linkCheck]
  split <;> simp

@[simp] theorem State.linkCheck_views (s : State) (p : Port) (g : Bool) :
    (s.linkCheck p g).base = s.base := by
  simp [State.base]

@[simp] theorem State.shutPort_frame (s : State) (p : Port) :
    (s.shutPort p).power = s.power ∧ (s.shutPort p).straps = s.straps ∧ (s.shutPort p).refCount = s.refCount ∧
    (s.shutPort p).pending = s.pending ∧ (s.shutPort p).timer = s.timer ∧ (s.shutPort p).gates = s.gates ∧
    (s.shutPort p).opportunities = s.opportunities ∧ (s.shutPort p).store.mem = s.store.mem ∧
    (s.shutPort p).gen = s.gen ∧ (s.shutPort p).mgmt.requests = s.mgmt.requests ∧
    (s.shutPort p).mgmt.engine = s.mgmt.engine ∧ (s.shutPort p).mgmt.answered = s.mgmt.answered ∧
    (s.shutPort p).mgmt.portControl = s.mgmt.portControl ∧ (s.shutPort p).mgmt.conditions = s.mgmt.conditions ∧
    (s.shutPort p).mgmt.noticeSeq = s.mgmt.noticeSeq ∧ (s.shutPort p).mgmt.epoch = s.mgmt.epoch ∧
    (s.shutPort p).mgmt.drain = s.mgmt.drain ∧ (∀ x, ((s.shutPort p).port x).tx = (s.port x).tx) ∧
    (∀ x, ((s.shutPort p).port x).rx = (s.port x).rx) ∧
    (∀ x, ((s.shutPort p).port x).lastCheck = (s.port x).lastCheck) ∧
    (∀ x, ((s.shutPort p).port x).qualCount = (s.port x).qualCount) ∧
    (∀ x, ((s.shutPort p).port x).signalGood = (s.port x).signalGood) := by
  simp [State.shutPort]

@[simp] theorem State.shutPort_views (s : State) (p : Port) :
    (s.shutPort p).base = s.base := by
  simp [State.base]

@[simp] theorem State.releaseTransmission_frame (s : State) (p : Port) (t : Transmission) :
    (s.releaseTransmission p t).power = s.power ∧ (s.releaseTransmission p t).straps = s.straps ∧
    (s.releaseTransmission p t).refCount = s.refCount ∧ (s.releaseTransmission p t).pending = s.pending ∧
    (s.releaseTransmission p t).timer = s.timer ∧ (s.releaseTransmission p t).gates = s.gates ∧
    (s.releaseTransmission p t).retention = s.retention ∧ (s.releaseTransmission p t).queues = s.queues ∧
    (s.releaseTransmission p t).opportunities = s.opportunities ∧
    (s.releaseTransmission p t).store.mem = s.store.mem ∧ (s.releaseTransmission p t).gen = s.gen ∧
    (s.releaseTransmission p t).mgmt = s.mgmt ∧
    (∀ x, ((s.releaseTransmission p t).port x).state = (s.port x).state) ∧
    (∀ x, ((s.releaseTransmission p t).port x).rx = (s.port x).rx) ∧
    (∀ x, ((s.releaseTransmission p t).port x).holder = (s.port x).holder) ∧
    (∀ x, ((s.releaseTransmission p t).port x).lastCheck = (s.port x).lastCheck) ∧
    (∀ x, ((s.releaseTransmission p t).port x).good = (s.port x).good) ∧
    (∀ x, ((s.releaseTransmission p t).port x).bad = (s.port x).bad) ∧
    (∀ x, ((s.releaseTransmission p t).port x).qualCount = (s.port x).qualCount) ∧
    (∀ x, ((s.releaseTransmission p t).port x).signalGood = (s.port x).signalGood) := by
  simp only [State.releaseTransmission]
  (repeat' split) <;> simp

@[simp] theorem State.releaseTransmission_views (s : State) (p : Port) (t : Transmission) :
    (∀ x y, (s.releaseTransmission p t).egress x y = s.egress x y) ∧
    (s.releaseTransmission p t).base = s.base := by
  simp [State.egress, State.base]

@[simp] theorem State.afterTransmission_frame (s : State) (p : Port) :
    (s.afterTransmission p).power = s.power ∧ (s.afterTransmission p).straps = s.straps ∧
    (s.afterTransmission p).refCount = s.refCount ∧ (s.afterTransmission p).pending = s.pending ∧
    (s.afterTransmission p).timer = s.timer ∧ (s.afterTransmission p).gates = s.gates ∧
    (s.afterTransmission p).gen = s.gen ∧ (s.afterTransmission p).mgmt.requests = s.mgmt.requests ∧
    (s.afterTransmission p).mgmt.engine = s.mgmt.engine ∧
    (s.afterTransmission p).mgmt.noticeSeq = s.mgmt.noticeSeq ∧
    (s.afterTransmission p).mgmt.epoch = s.mgmt.epoch ∧ (s.afterTransmission p).mgmt.drain = s.mgmt.drain ∧
    (∀ x, ((s.afterTransmission p).port x).tx = (s.port x).tx) ∧
    (∀ x, ((s.afterTransmission p).port x).rx = (s.port x).rx) ∧
    (∀ x, ((s.afterTransmission p).port x).lastCheck = (s.port x).lastCheck) ∧
    (∀ x, ((s.afterTransmission p).port x).qualCount = (s.port x).qualCount) ∧
    (∀ x, ((s.afterTransmission p).port x).signalGood = (s.port x).signalGood) := by
  unfold State.afterTransmission
  (repeat' split) <;> simp

@[simp] theorem State.afterTransmission_views (s : State) (p : Port) :
    (s.afterTransmission p).base = s.base := by
  simp [State.base]

@[simp] theorem State.endTransmission_frame (s : State) (p : Port) :
    (s.endTransmission p).power = s.power ∧ (s.endTransmission p).straps = s.straps ∧
    (s.endTransmission p).refCount = s.refCount ∧ (s.endTransmission p).pending = s.pending ∧
    (s.endTransmission p).timer = s.timer ∧ (s.endTransmission p).gates = s.gates ∧
    (s.endTransmission p).gen = s.gen ∧ (s.endTransmission p).mgmt.requests = s.mgmt.requests ∧
    (s.endTransmission p).mgmt.engine = s.mgmt.engine ∧
    (s.endTransmission p).mgmt.noticeSeq = s.mgmt.noticeSeq ∧ (s.endTransmission p).mgmt.epoch = s.mgmt.epoch ∧
    (s.endTransmission p).mgmt.drain = s.mgmt.drain ∧
    (∀ x, ((s.endTransmission p).port x).rx = (s.port x).rx) ∧
    (∀ x, ((s.endTransmission p).port x).lastCheck = (s.port x).lastCheck) ∧
    (∀ x, ((s.endTransmission p).port x).qualCount = (s.port x).qualCount) ∧
    (∀ x, ((s.endTransmission p).port x).signalGood = (s.port x).signalGood) := by
  unfold State.endTransmission
  (repeat' split) <;> simp

@[simp] theorem State.endTransmission_views (s : State) (p : Port) :
    (s.endTransmission p).base = s.base := by
  simp [State.base]

@[simp] theorem State.clearStream_frame (s : State) (i : Byte) :
    (s.clearStream i).power = s.power ∧ (s.clearStream i).straps = s.straps ∧
    (s.clearStream i).refCount = s.refCount ∧ (s.clearStream i).pending = s.pending ∧
    (s.clearStream i).timer = s.timer ∧ (s.clearStream i).gates = s.gates ∧
    (s.clearStream i).retention = s.retention ∧ (s.clearStream i).queues = s.queues ∧
    (s.clearStream i).opportunities = s.opportunities ∧ (s.clearStream i).store = s.store ∧
    (s.clearStream i).gen = s.gen ∧ (s.clearStream i).mgmt = s.mgmt ∧ (s.clearStream i).ports = s.ports := by
  simp [State.clearStream]

@[simp] theorem State.clearStream_views (s : State) (i : Byte) :
    (∀ x, (s.clearStream i).port x = s.port x) ∧ (∀ x y, (s.clearStream i).egress x y = s.egress x y) ∧
    (s.clearStream i).base = s.base := by
  simp [State.port, State.egress, State.base]

@[simp] theorem foldl_clearStream_frame (l : List Nat) (s : State) (f : Nat → Byte) :
    (l.foldl (fun s i => s.clearStream (f i)) s).power = s.power ∧
    (l.foldl (fun s i => s.clearStream (f i)) s).straps = s.straps ∧
    (l.foldl (fun s i => s.clearStream (f i)) s).refCount = s.refCount ∧
    (l.foldl (fun s i => s.clearStream (f i)) s).pending = s.pending ∧
    (l.foldl (fun s i => s.clearStream (f i)) s).timer = s.timer ∧
    (l.foldl (fun s i => s.clearStream (f i)) s).gates = s.gates ∧
    (l.foldl (fun s i => s.clearStream (f i)) s).retention = s.retention ∧
    (l.foldl (fun s i => s.clearStream (f i)) s).queues = s.queues ∧
    (l.foldl (fun s i => s.clearStream (f i)) s).opportunities = s.opportunities ∧
    (l.foldl (fun s i => s.clearStream (f i)) s).store = s.store ∧
    (l.foldl (fun s i => s.clearStream (f i)) s).gen = s.gen ∧
    (l.foldl (fun s i => s.clearStream (f i)) s).mgmt = s.mgmt ∧
    (l.foldl (fun s i => s.clearStream (f i)) s).ports = s.ports := by
  induction l generalizing s with
  | nil => simp
  | cons x l ih => simp [ih]

@[simp] theorem foldl_clearStream_views (l : List Nat) (s : State) (f : Nat → Byte) :
    (∀ x, (l.foldl (fun s i => s.clearStream (f i)) s).port x = s.port x) ∧
    (∀ x y, (l.foldl (fun s i => s.clearStream (f i)) s).egress x y = s.egress x y) ∧
    (l.foldl (fun s i => s.clearStream (f i)) s).base = s.base := by
  simp [State.port, State.egress, State.base]

@[simp] theorem State.clearStreams_frame (s : State) (m n : Nat) :
    (s.clearStreams m n).power = s.power ∧ (s.clearStreams m n).straps = s.straps ∧
    (s.clearStreams m n).refCount = s.refCount ∧ (s.clearStreams m n).pending = s.pending ∧
    (s.clearStreams m n).timer = s.timer ∧ (s.clearStreams m n).gates = s.gates ∧
    (s.clearStreams m n).retention = s.retention ∧ (s.clearStreams m n).queues = s.queues ∧
    (s.clearStreams m n).opportunities = s.opportunities ∧ (s.clearStreams m n).store = s.store ∧
    (s.clearStreams m n).gen = s.gen ∧ (s.clearStreams m n).mgmt = s.mgmt ∧
    (s.clearStreams m n).ports = s.ports := by
  exact foldl_clearStream_frame _ s _

@[simp] theorem State.clearStreams_views (s : State) (m n : Nat) :
    (∀ x, (s.clearStreams m n).port x = s.port x) ∧ (∀ x y, (s.clearStreams m n).egress x y = s.egress x y) ∧
    (s.clearStreams m n).base = s.base := by
  simp [State.port, State.egress, State.base]

@[simp] theorem State.clearPorts_frame (s : State) :
    s.clearPorts.power = s.power ∧ s.clearPorts.straps = s.straps ∧ s.clearPorts.refCount = s.refCount ∧
    s.clearPorts.pending = s.pending ∧ s.clearPorts.timer = s.timer ∧ s.clearPorts.streams = s.streams ∧
    s.clearPorts.gates = s.gates ∧ s.clearPorts.retention = s.retention ∧ s.clearPorts.queues = s.queues ∧
    s.clearPorts.opportunities = s.opportunities ∧ s.clearPorts.store = s.store ∧ s.clearPorts.gen = s.gen ∧
    s.clearPorts.mgmt = s.mgmt ∧ (∀ x, (s.clearPorts.port x).state = (s.port x).state) ∧
    (∀ x, (s.clearPorts.port x).tx = (s.port x).tx) ∧ (∀ x, (s.clearPorts.port x).rx = (s.port x).rx) ∧
    (∀ x, (s.clearPorts.port x).holder = (s.port x).holder) ∧
    (∀ x, (s.clearPorts.port x).lastCheck = (s.port x).lastCheck) ∧
    (∀ x, (s.clearPorts.port x).good = (s.port x).good) ∧ (∀ x, (s.clearPorts.port x).bad = (s.port x).bad) ∧
    (∀ x, (s.clearPorts.port x).qualCount = (s.port x).qualCount) ∧
    (∀ x, (s.clearPorts.port x).signalGood = (s.port x).signalGood) := by
  simp [State.clearPorts, allPorts]

@[simp] theorem State.clearPorts_views (s : State) :
    (∀ x y, s.clearPorts.egress x y = s.egress x y) ∧ s.clearPorts.base = s.base := by
  simp [State.egress, State.base]

@[simp] theorem State.setShadow_frame (s : State) (b : Bank) :
    (s.setShadow b).power = s.power ∧ (s.setShadow b).straps = s.straps ∧
    (s.setShadow b).refCount = s.refCount ∧ (s.setShadow b).pending = s.pending ∧
    (s.setShadow b).timer = s.timer ∧ (s.setShadow b).streams = s.streams ∧ (s.setShadow b).gates = s.gates ∧
    (s.setShadow b).retention = s.retention ∧ (s.setShadow b).queues = s.queues ∧
    (s.setShadow b).opportunities = s.opportunities ∧ (s.setShadow b).store = s.store ∧
    (s.setShadow b).mgmt = s.mgmt ∧ (s.setShadow b).gen.active = s.gen.active ∧
    (s.setShadow b).gen.number = s.gen.number ∧ (s.setShadow b).gen.commit = s.gen.commit ∧
    (s.setShadow b).ports = s.ports := by
  simp [State.setShadow]

@[simp] theorem State.setShadow_views (s : State) (b : Bank) :
    (∀ x, (s.setShadow b).port x = s.port x) ∧ (∀ x y, (s.setShadow b).egress x y = s.egress x y) ∧
    (s.setShadow b).base = s.base := by
  simp [State.port, State.egress, State.base]

@[simp] theorem State.requeueOne_frame (s : State) (r : Record) (l : List Record) :
    (s.requeueOne r l).power = s.power ∧ (s.requeueOne r l).straps = s.straps ∧
    (s.requeueOne r l).refCount = s.refCount ∧ (s.requeueOne r l).pending = s.pending ∧
    (s.requeueOne r l).timer = s.timer ∧ (s.requeueOne r l).streams = s.streams ∧
    (s.requeueOne r l).gates = s.gates ∧ (s.requeueOne r l).store = s.store ∧ (s.requeueOne r l).gen = s.gen ∧
    (s.requeueOne r l).mgmt = s.mgmt ∧ (s.requeueOne r l).ports = s.ports := by
  unfold State.requeueOne
  (repeat' split) <;> simp

@[simp] theorem State.requeueOne_views (s : State) (r : Record) (l : List Record) :
    (∀ x, (s.requeueOne r l).port x = s.port x) ∧ (s.requeueOne r l).base = s.base := by
  simp [State.port, State.base]

@[simp] theorem State.requeue_frame (n m : Nat) (s : State) :
    (State.requeue n m s).1.power = s.power ∧ (State.requeue n m s).1.straps = s.straps ∧
    (State.requeue n m s).1.refCount = s.refCount ∧ (State.requeue n m s).1.pending = s.pending ∧
    (State.requeue n m s).1.timer = s.timer ∧ (State.requeue n m s).1.streams = s.streams ∧
    (State.requeue n m s).1.gates = s.gates ∧ (State.requeue n m s).1.store = s.store ∧
    (State.requeue n m s).1.gen = s.gen ∧ (State.requeue n m s).1.mgmt = s.mgmt ∧
    (State.requeue n m s).1.ports = s.ports := by
  induction n generalizing m s with
  | zero => simp [State.requeue]
  | succ n ih =>
    unfold State.requeue
    split
    · simp
    · split
      · simp
      · simp [ih]

@[simp] theorem State.requeue_views (n m : Nat) (s : State) :
    (∀ x, (State.requeue n m s).1.port x = s.port x) ∧ (State.requeue n m s).1.base = s.base := by
  simp [State.port, State.base]

@[simp] theorem foldl_releaseRecord_frame (l : List Record) (s : State) :
    (l.foldl (fun s r => s.releaseSlot r.slot) s).power = s.power ∧
    (l.foldl (fun s r => s.releaseSlot r.slot) s).straps = s.straps ∧
    (l.foldl (fun s r => s.releaseSlot r.slot) s).refCount = s.refCount ∧
    (l.foldl (fun s r => s.releaseSlot r.slot) s).pending = s.pending ∧
    (l.foldl (fun s r => s.releaseSlot r.slot) s).timer = s.timer ∧
    (l.foldl (fun s r => s.releaseSlot r.slot) s).streams = s.streams ∧
    (l.foldl (fun s r => s.releaseSlot r.slot) s).gates = s.gates ∧
    (l.foldl (fun s r => s.releaseSlot r.slot) s).retention = s.retention ∧
    (l.foldl (fun s r => s.releaseSlot r.slot) s).queues = s.queues ∧
    (l.foldl (fun s r => s.releaseSlot r.slot) s).opportunities = s.opportunities ∧
    (l.foldl (fun s r => s.releaseSlot r.slot) s).store.mem = s.store.mem ∧
    (l.foldl (fun s r => s.releaseSlot r.slot) s).gen = s.gen ∧
    (l.foldl (fun s r => s.releaseSlot r.slot) s).mgmt = s.mgmt ∧
    (l.foldl (fun s r => s.releaseSlot r.slot) s).ports = s.ports := by
  induction l generalizing s with
  | nil => simp
  | cons x l ih => simp [ih]

@[simp] theorem foldl_releaseRecord_views (l : List Record) (s : State) :
    (∀ x, (l.foldl (fun s r => s.releaseSlot r.slot) s).port x = s.port x) ∧
    (∀ x y, (l.foldl (fun s r => s.releaseSlot r.slot) s).egress x y = s.egress x y) ∧
    (l.foldl (fun s r => s.releaseSlot r.slot) s).base = s.base := by
  simp [State.port, State.egress, State.base]

@[simp] theorem State.flushRecords_frame (s : State) :
    s.flushRecords.power = s.power ∧ s.flushRecords.straps = s.straps ∧ s.flushRecords.refCount = s.refCount ∧
    s.flushRecords.pending = s.pending ∧ s.flushRecords.timer = s.timer ∧ s.flushRecords.streams = s.streams ∧
    s.flushRecords.gates = s.gates ∧ s.flushRecords.queues = s.queues ∧
    s.flushRecords.opportunities = s.opportunities ∧ s.flushRecords.store.mem = s.store.mem ∧
    s.flushRecords.gen = s.gen ∧ s.flushRecords.mgmt = s.mgmt ∧ s.flushRecords.ports = s.ports := by
  simp [State.flushRecords]

@[simp] theorem State.flushRecords_views (s : State) :
    (∀ x, s.flushRecords.port x = s.port x) ∧ (∀ x y, s.flushRecords.egress x y = s.egress x y) ∧
    s.flushRecords.base = s.base := by
  simp [State.port, State.egress, State.base]

@[simp] theorem State.clearAllStreams_frame (s : State) :
    s.clearAllStreams.power = s.power ∧ s.clearAllStreams.straps = s.straps ∧
    s.clearAllStreams.refCount = s.refCount ∧ s.clearAllStreams.pending = s.pending ∧
    s.clearAllStreams.timer = s.timer ∧ s.clearAllStreams.gates = s.gates ∧
    s.clearAllStreams.retention = s.retention ∧ s.clearAllStreams.queues = s.queues ∧
    s.clearAllStreams.opportunities = s.opportunities ∧ s.clearAllStreams.store = s.store ∧
    s.clearAllStreams.gen = s.gen ∧ s.clearAllStreams.mgmt = s.mgmt ∧ s.clearAllStreams.ports = s.ports := by
  simp [State.clearAllStreams]

@[simp] theorem State.clearAllStreams_views (s : State) :
    (∀ x, s.clearAllStreams.port x = s.port x) ∧ (∀ x y, s.clearAllStreams.egress x y = s.egress x y) ∧
    s.clearAllStreams.base = s.base := by
  simp [State.port, State.egress, State.base]

@[simp] theorem foldl_releaseDesc_frame (l : List Desc) (s : State) :
    (l.foldl (fun s d => s.releaseSlot d.slot) s).power = s.power ∧
    (l.foldl (fun s d => s.releaseSlot d.slot) s).straps = s.straps ∧
    (l.foldl (fun s d => s.releaseSlot d.slot) s).refCount = s.refCount ∧
    (l.foldl (fun s d => s.releaseSlot d.slot) s).pending = s.pending ∧
    (l.foldl (fun s d => s.releaseSlot d.slot) s).timer = s.timer ∧
    (l.foldl (fun s d => s.releaseSlot d.slot) s).streams = s.streams ∧
    (l.foldl (fun s d => s.releaseSlot d.slot) s).gates = s.gates ∧
    (l.foldl (fun s d => s.releaseSlot d.slot) s).retention = s.retention ∧
    (l.foldl (fun s d => s.releaseSlot d.slot) s).queues = s.queues ∧
    (l.foldl (fun s d => s.releaseSlot d.slot) s).opportunities = s.opportunities ∧
    (l.foldl (fun s d => s.releaseSlot d.slot) s).store.mem = s.store.mem ∧
    (l.foldl (fun s d => s.releaseSlot d.slot) s).gen = s.gen ∧
    (l.foldl (fun s d => s.releaseSlot d.slot) s).mgmt = s.mgmt ∧
    (l.foldl (fun s d => s.releaseSlot d.slot) s).ports = s.ports := by
  induction l generalizing s with
  | nil => simp
  | cons x l ih => simp [ih]

@[simp] theorem foldl_releaseDesc_views (l : List Desc) (s : State) :
    (∀ x, (l.foldl (fun s d => s.releaseSlot d.slot) s).port x = s.port x) ∧
    (∀ x y, (l.foldl (fun s d => s.releaseSlot d.slot) s).egress x y = s.egress x y) ∧
    (l.foldl (fun s d => s.releaseSlot d.slot) s).base = s.base := by
  simp [State.port, State.egress, State.base]

@[simp] theorem State.discardQueue_frame (s : State) (p : Port) (c : Cls) :
    (State.discardQueue p s c).power = s.power ∧ (State.discardQueue p s c).straps = s.straps ∧
    (State.discardQueue p s c).refCount = s.refCount ∧ (State.discardQueue p s c).pending = s.pending ∧
    (State.discardQueue p s c).timer = s.timer ∧ (State.discardQueue p s c).streams = s.streams ∧
    (State.discardQueue p s c).gates = s.gates ∧ (State.discardQueue p s c).retention = s.retention ∧
    (State.discardQueue p s c).opportunities = s.opportunities ∧
    (State.discardQueue p s c).store.mem = s.store.mem ∧ (State.discardQueue p s c).gen = s.gen ∧
    (State.discardQueue p s c).mgmt = s.mgmt ∧ (State.discardQueue p s c).ports = s.ports := by
  simp [State.discardQueue]

@[simp] theorem State.discardQueue_views (s : State) (p : Port) (c : Cls) :
    (∀ x, (State.discardQueue p s c).port x = s.port x) ∧ (State.discardQueue p s c).base = s.base := by
  simp [State.port, State.base]

@[simp] theorem State.discardQueues_frame (s : State) :
    s.discardQueues.power = s.power ∧ s.discardQueues.straps = s.straps ∧
    s.discardQueues.refCount = s.refCount ∧ s.discardQueues.pending = s.pending ∧
    s.discardQueues.timer = s.timer ∧ s.discardQueues.streams = s.streams ∧ s.discardQueues.gates = s.gates ∧
    s.discardQueues.retention = s.retention ∧ s.discardQueues.opportunities = s.opportunities ∧
    s.discardQueues.store.mem = s.store.mem ∧ s.discardQueues.gen = s.gen ∧ s.discardQueues.mgmt = s.mgmt ∧
    s.discardQueues.ports = s.ports := by
  simp [State.discardQueues, allPorts, allClasses]

@[simp] theorem State.discardQueues_views (s : State) :
    (∀ x, s.discardQueues.port x = s.port x) ∧ s.discardQueues.base = s.base := by
  simp [State.port, State.base]

@[simp] theorem State.emptyHolders_frame (s : State) :
    s.emptyHolders.power = s.power ∧ s.emptyHolders.straps = s.straps ∧ s.emptyHolders.refCount = s.refCount ∧
    s.emptyHolders.pending = s.pending ∧ s.emptyHolders.timer = s.timer ∧ s.emptyHolders.streams = s.streams ∧
    s.emptyHolders.gates = s.gates ∧ s.emptyHolders.retention = s.retention ∧
    s.emptyHolders.queues = s.queues ∧ s.emptyHolders.opportunities = s.opportunities ∧
    s.emptyHolders.store = s.store ∧ s.emptyHolders.gen = s.gen ∧ s.emptyHolders.mgmt = s.mgmt ∧
    (∀ x, (s.emptyHolders.port x).state = (s.port x).state) ∧
    (∀ x, (s.emptyHolders.port x).counters = (s.port x).counters) ∧
    (∀ x, (s.emptyHolders.port x).tx = (s.port x).tx) ∧ (∀ x, (s.emptyHolders.port x).rx = (s.port x).rx) ∧
    (∀ x, (s.emptyHolders.port x).lastCheck = (s.port x).lastCheck) ∧
    (∀ x, (s.emptyHolders.port x).good = (s.port x).good) ∧
    (∀ x, (s.emptyHolders.port x).bad = (s.port x).bad) ∧
    (∀ x, (s.emptyHolders.port x).qualCount = (s.port x).qualCount) ∧
    (∀ x, (s.emptyHolders.port x).signalGood = (s.port x).signalGood) := by
  simp [State.emptyHolders, allPorts]

@[simp] theorem State.emptyHolders_views (s : State) :
    (∀ x y, s.emptyHolders.egress x y = s.egress x y) ∧ s.emptyHolders.base = s.base := by
  simp [State.egress, State.base]

@[simp] theorem State.stopTransmission_frame (s : State) (p : Port) :
    (s.stopTransmission p).power = s.power ∧ (s.stopTransmission p).straps = s.straps ∧
    (s.stopTransmission p).refCount = s.refCount ∧ (s.stopTransmission p).pending = s.pending ∧
    (s.stopTransmission p).timer = s.timer ∧ (s.stopTransmission p).streams = s.streams ∧
    (s.stopTransmission p).gates = s.gates ∧ (s.stopTransmission p).retention = s.retention ∧
    (s.stopTransmission p).queues = s.queues ∧ (s.stopTransmission p).opportunities = s.opportunities ∧
    (s.stopTransmission p).store.mem = s.store.mem ∧ (s.stopTransmission p).gen = s.gen ∧
    (s.stopTransmission p).mgmt = s.mgmt ∧ (∀ x, ((s.stopTransmission p).port x).state = (s.port x).state) ∧
    (∀ x, ((s.stopTransmission p).port x).counters = (s.port x).counters) ∧
    (∀ x, ((s.stopTransmission p).port x).rx = (s.port x).rx) ∧
    (∀ x, ((s.stopTransmission p).port x).holder = (s.port x).holder) ∧
    (∀ x, ((s.stopTransmission p).port x).lastCheck = (s.port x).lastCheck) ∧
    (∀ x, ((s.stopTransmission p).port x).good = (s.port x).good) ∧
    (∀ x, ((s.stopTransmission p).port x).bad = (s.port x).bad) ∧
    (∀ x, ((s.stopTransmission p).port x).qualCount = (s.port x).qualCount) ∧
    (∀ x, ((s.stopTransmission p).port x).signalGood = (s.port x).signalGood) := by
  simp only [State.stopTransmission]
  (repeat' split) <;> simp

@[simp] theorem State.stopTransmission_views (s : State) (p : Port) :
    (∀ x y, (s.stopTransmission p).egress x y = s.egress x y) ∧ (s.stopTransmission p).base = s.base := by
  simp [State.egress, State.base]

@[simp] theorem State.halt_frame (s : State) :
    s.halt.power = s.power ∧ s.halt.straps = s.straps ∧ s.halt.refCount = s.refCount ∧
    s.halt.pending = s.pending ∧ s.halt.timer = s.timer ∧ s.halt.streams = s.streams ∧ s.halt.gates = s.gates ∧
    s.halt.retention = s.retention ∧ s.halt.queues = s.queues ∧ s.halt.opportunities = s.opportunities ∧
    s.halt.store.mem = s.store.mem ∧ s.halt.gen = s.gen ∧ s.halt.mgmt.requests = s.mgmt.requests ∧
    s.halt.mgmt.engine = s.mgmt.engine ∧ s.halt.mgmt.answered = s.mgmt.answered ∧
    s.halt.mgmt.portControl = s.mgmt.portControl ∧ s.halt.mgmt.conditions = s.mgmt.conditions ∧
    s.halt.mgmt.notices = s.mgmt.notices ∧ s.halt.mgmt.noticeSeq = s.mgmt.noticeSeq ∧
    s.halt.mgmt.epoch = s.mgmt.epoch ∧ (∀ x, (s.halt.port x).state = (s.port x).state) ∧
    (∀ x, (s.halt.port x).counters = (s.port x).counters) ∧ (∀ x, (s.halt.port x).holder = (s.port x).holder) ∧
    (∀ x, (s.halt.port x).lastCheck = (s.port x).lastCheck) ∧ (∀ x, (s.halt.port x).good = (s.port x).good) ∧
    (∀ x, (s.halt.port x).bad = (s.port x).bad) ∧ (∀ x, (s.halt.port x).qualCount = (s.port x).qualCount) ∧
    (∀ x, (s.halt.port x).signalGood = (s.port x).signalGood) := by
  simp [State.halt, allPorts]

@[simp] theorem State.halt_views (s : State) :
    (∀ x y, s.halt.egress x y = s.egress x y) ∧ s.halt.base = s.base := by
  simp [State.egress, State.base]

end Sys2Proof.Machine
end

