-- ==== Sys2Proof/Laws/Memory.lean ====
section
/-! SUPPORT. The frame store's bytes: a read after a write, and the canonical form that every write keeps. -/

namespace Sys2Proof.Machine

open Sys2Proof

/-! ### The canonical form -/

/-- What the canonical form says, as propositions. -/
theorem memWf_iff (m : List Host.Cell) :
    memWf m = true ↔ m.Pairwise (fun x y => x.1 < y.1) ∧
      ∀ c ∈ m, c.1 < Config.slots * Config.slotBytes ∧ c.2 ≠ Config.unlistedByte := by
  simp [memWf]

/-- The cells of some bytes lie at the addresses of those bytes, and none holds what an unlisted address reads as. -/
theorem mem_cellsOf {a : Nat} {bs : List Byte} {c : Host.Cell} (h : c ∈ cellsOf a bs) :
    a ≤ c.1 ∧ c.1 < a + bs.length ∧ c.2 ≠ Config.unlistedByte := by
  induction bs generalizing a with
  | nil => simp [cellsOf] at h
  | cons b bs ih =>
    unfold cellsOf at h
    split at h
    · have := ih h
      simp only [List.length_cons]
      exact ⟨by omega, by omega, this.2.2⟩
    · rename_i hb
      rcases List.mem_cons.mp h with rfl | h
      · exact ⟨Nat.le_refl _, by simp, hb⟩
      · have := ih h
        simp only [List.length_cons]
        exact ⟨by omega, by omega, this.2.2⟩

/-- The cells of some bytes stand in rising order. -/
theorem cellsOf_pairwise (a : Nat) (bs : List Byte) : (cellsOf a bs).Pairwise fun x y => x.1 < y.1 := by
  induction bs generalizing a with
  | nil => simp [cellsOf]
  | cons b bs ih =>
    unfold cellsOf
    split
    · exact ih _
    · refine List.pairwise_cons.mpr ⟨fun c hc => ?_, ih _⟩
      have := (mem_cellsOf hc).1
      show a < c.1
      omega

/-- A write inside the store keeps the canonical form. -/
theorem memWf_writeBytes {m : List Host.Cell} {a : Nat} {bs : List Byte} (h : memWf m = true)
    (ha : a + bs.length ≤ Config.slots * Config.slotBytes) : memWf (writeBytes m a bs) = true := by
  obtain ⟨hp, hc⟩ := (memWf_iff m).mp h
  refine (memWf_iff _).mpr ⟨?_, fun c hm => ?_⟩
  · simp only [writeBytes, List.append_assoc]
    refine List.pairwise_append.mpr ⟨hp.filter _, List.pairwise_append.mpr
      ⟨cellsOf_pairwise _ _, hp.filter _, fun x hx y hy => ?_⟩, fun x hx y hy => ?_⟩
    · have := (mem_cellsOf hx).2.1
      have := of_decide_eq_true (List.mem_filter.mp hy).2
      omega
    · have hx := of_decide_eq_true (List.mem_filter.mp hx).2
      rcases List.mem_append.mp hy with hy | hy
      · have := (mem_cellsOf hy).1
        omega
      · have := of_decide_eq_true (List.mem_filter.mp hy).2
        omega
  · simp only [writeBytes, List.append_assoc, List.mem_append] at hm
    rcases hm with hm | hm | hm
    · exact hc c (List.mem_filter.mp hm).1
    · have := mem_cellsOf hm
      exact ⟨by omega, this.2.2⟩
    · exact hc c (List.mem_filter.mp hm).1

/-- A slot's write keeps the canonical form. -/
theorem State.memWf_writeSlot {s : State} {n : Nat} {bs : List Byte} (h : memWf s.store.mem = true) :
    memWf (s.writeSlot n bs).store.mem = true := by
  unfold State.writeSlot
  split
  · rename_i hn
    refine memWf_writeBytes h ?_
    have hl : (bs.take Config.slotBytes).length ≤ Config.slotBytes := List.length_take_le _ _
    have hm : (n + 1) * Config.slotBytes ≤ Config.slots * Config.slotBytes := Nat.mul_le_mul_right _ hn
    simp only [slotBase]
    rw [Nat.add_mul, Nat.mul_comm n] at hm
    omega
  · exact h

/-! ### A read after a write -/

/-- A listed byte is what a read finds, when no earlier cell has the address. -/
theorem readByte_append (m n : List Host.Cell) (a : Nat) (h : ∀ c ∈ m, c.1 ≠ a) :
    readByte (m ++ n) a = readByte n a := by
  have hn : m.find? (fun c => c.1 == a) = none := by
    simpa [List.find?_eq_none] using h
  simp only [readByte, List.find?_append, hn, Option.none_or]

/-- A read finds nothing in cells of other addresses. -/
theorem readByte_append_right (m n : List Host.Cell) (a : Nat) (h : ∀ c ∈ n, c.1 ≠ a) :
    readByte (m ++ n) a = readByte m a := by
  have hn : n.find? (fun c => c.1 == a) = none := by
    simpa [List.find?_eq_none] using h
  simp only [readByte, List.find?_append, hn, Option.or_none]

/-- Dropping cells of other addresses changes no read. -/
theorem readByte_filter (m : List Host.Cell) (a : Nat) (f : Host.Cell → Bool)
    (h : ∀ c : Host.Cell, c.1 = a → f c = true) : readByte (m.filter f) a = readByte m a := by
  have hp : (fun c : Host.Cell => decide (f c = true ∧ (c.1 == a) = true)) = fun c => c.1 == a := by
    funext c
    by_cases hc : c.1 = a
    · simp [h c hc, hc]
    · simp [hc]
  simp only [readByte, List.find?_filter, hp]

/-- A read among the cells of some bytes gives the byte of the address. -/
theorem readByte_cellsOf (a : Nat) (bs : List Byte) (i : Nat) (h : i < bs.length) :
    readByte (cellsOf a bs) (a + i) = bs[i] := by
  induction bs generalizing a i with
  | nil => simp at h
  | cons b bs ih =>
    have other : ∀ c ∈ cellsOf (a + 1) bs, c.1 ≠ a := fun c hc => by
      have := (mem_cellsOf hc).1
      omega
    unfold cellsOf
    cases i with
    | zero =>
      split
      · rename_i hb
        have := readByte_append (cellsOf (a + 1) bs) [] a other
        simp only [List.append_nil] at this
        simp only [Nat.add_zero, this, List.getElem_cons_zero, hb]
        rfl
      · simp [readByte]
    | succ i =>
      have hi : i < bs.length := by simpa using h
      have step := ih (a + 1) i hi
      rw [Nat.add_right_comm, Nat.add_assoc a i 1] at step
      split
      · simpa using step
      · rw [List.getElem_cons_succ, ← step]
        simp [readByte]

/-- A byte that a write covers reads as written. -/
theorem readByte_writeBytes (m : List Host.Cell) (a : Nat) (bs : List Byte) (i : Nat) (h : i < bs.length) :
    readByte (writeBytes m a bs) (a + i) = bs[i] := by
  rw [writeBytes, readByte_append_right, readByte_append, readByte_cellsOf a bs i h]
  · intro c hc
    have := of_decide_eq_true (List.mem_filter.mp hc).2
    omega
  · intro c hc
    have := of_decide_eq_true (List.mem_filter.mp hc).2
    omega

/-- A byte that a write does not cover reads as before. -/
theorem readByte_writeBytes_other (m : List Host.Cell) (a : Nat) (bs : List Byte) (x : Nat)
    (h : x < a ∨ a + bs.length ≤ x) : readByte (writeBytes m a bs) x = readByte m x := by
  have mid : ∀ c ∈ cellsOf a bs, c.1 ≠ x := fun c hc => by
    have := mem_cellsOf hc
    omega
  rcases h with h | h
  · rw [writeBytes, readByte_append_right, readByte_append_right _ _ _ mid, readByte_filter]
    · intro c hc
      simpa [hc] using h
    · intro c hc
      have := of_decide_eq_true (List.mem_filter.mp hc).2
      omega
  · rw [writeBytes, List.append_assoc, readByte_append, readByte_append _ _ _ mid, readByte_filter]
    · intro c hc
      simpa [hc] using h
    · intro c hc
      have := of_decide_eq_true (List.mem_filter.mp hc).2
      omega

@[simp] theorem readBytes_length (m : List Host.Cell) (a n : Nat) : (readBytes m a n).length = n := by
  simp [readBytes]

/-- The bytes just written are read back. -/
theorem readBytes_writeBytes (m : List Host.Cell) (a : Nat) (bs : List Byte) :
    readBytes (writeBytes m a bs) a bs.length = bs := by
  refine List.ext_getElem (by simp) fun i h _ => ?_
  have hi : i < bs.length := by simpa using h
  simp [readBytes, readByte_writeBytes m a bs i hi]

/-- A slot gives back what was written into it. -/
theorem State.slotBytes_writeSlot (s : State) (n : Nat) (bs : List Byte) (hn : n < Config.slots)
    (hb : bs.length ≤ Config.slotBytes) : (s.writeSlot n bs).slotBytes n bs.length = bs := by
  have ht : bs.take Config.slotBytes = bs := List.take_of_length_le hb
  simp only [State.slotBytes, State.writeSlot, hn, if_true, ht]
  exact readBytes_writeBytes _ _ _

/-- A write into a slot leaves the bytes of every other slot. -/
theorem State.slotBytes_writeSlot_other (s : State) {n k : Nat} (bs : List Byte) (l : Nat) (h : k ≠ n)
    (hl : l ≤ Config.slotBytes) : (s.writeSlot n bs).slotBytes k l = s.slotBytes k l := by
  unfold State.writeSlot
  split
  · simp only [State.slotBytes, readBytes]
    refine List.map_congr_left fun i hi => readByte_writeBytes_other _ _ _ _ ?_
    have hi : i < l := List.mem_range.mp hi
    have ht : (bs.take Config.slotBytes).length ≤ Config.slotBytes := List.length_take_le _ _
    simp only [slotBase, Config.slotBytes] at *
    omega
  · rfl

end Sys2Proof.Machine
end

