-- ==== Sys2Proof/WellFormed.lean ====
section
/-! DEFINITION. Which commands are well formed: the strap value that a reset samples is what seven pins can give. -/

namespace Sys2Proof

/-- A command is well formed when its operands are values the pins can give: the seven ADDR straps read 0 to 127
(R167). Every other operand is a value of its type; a reception may have any number of bytes (R5 judges it). -/
def Instr.wellFormed : Instr → Bool
  | .powerOn straps => decide (straps < 128)
  | .resetNAssertion => true
  | .pinReset straps => decide (straps < 128)
  | .receptionStart _ => true
  | .kindFieldReceived _ _ => true
  | .receptionEnd _ _ => true
  | .linkCheck _ _ => true
  | .cycleEnd => true
  | .windowEvent _ => true
  | .transmissionEnd _ => true
  | .unknownRequestKind => true
  | .identify => true
  | .readStatus => true
  | .readStreamCounters => true
  | .readPortCounters => true
  | .readEntries => true
  | .stageStreamEntries => true
  | .stageWindowEntries => true
  | .stageBaseRecord => true
  | .copyActiveToShadow => true
  | .commit => true
  | .cancelCommit => true
  | .portControl => true
  | .retrieveRetained => true
  | .requeueRetained => true
  | .flushRetained => true
  | .clearCounters => true
  | .queueReset => true
  | .deviceReset => true
  | .deviceResetEffect => true
  | .powerOnHold => true

end Sys2Proof
end

