-- ==== Sys2Proof/Laws/PerInstr.lean ====
section
/-! SUPPORT. The per-command family WellFormedBound: a command is well formed exactly when the strap value it carries, if it
carries one, is what the seven ADDR pins can give (R167). -/

namespace Sys2Proof.Laws

open Sys2Proof

/-- A command is well formed exactly when its strap value, if it has one, is below 128. -/
def WellFormedBound.Statement (i : Instr) : Prop :=
  i.wellFormed = true ↔ ∀ v, i = .powerOn v ∨ i = .pinReset v → v < 128

theorem WellFormedBound.powerOn (straps : Nat) : WellFormedBound.Statement (.powerOn straps) := by
  simp [WellFormedBound.Statement, Instr.wellFormed]

theorem WellFormedBound.resetNAssertion : WellFormedBound.Statement (.resetNAssertion) := by
  simp [WellFormedBound.Statement, Instr.wellFormed]

theorem WellFormedBound.pinReset (straps : Nat) : WellFormedBound.Statement (.pinReset straps) := by
  simp [WellFormedBound.Statement, Instr.wellFormed]

theorem WellFormedBound.receptionStart (port : Port) : WellFormedBound.Statement (.receptionStart port) := by
  simp [WellFormedBound.Statement, Instr.wellFormed]

theorem WellFormedBound.kindFieldReceived (port : Port) (kind : Byte) : WellFormedBound.Statement (.kindFieldReceived port kind) := by
  simp [WellFormedBound.Statement, Instr.wellFormed]

theorem WellFormedBound.receptionEnd (port : Port) (bytes : List Byte) : WellFormedBound.Statement (.receptionEnd port bytes) := by
  simp [WellFormedBound.Statement, Instr.wellFormed]

theorem WellFormedBound.linkCheck (port : Port) (good : Bool) : WellFormedBound.Statement (.linkCheck port good) := by
  simp [WellFormedBound.Statement, Instr.wellFormed]

theorem WellFormedBound.cycleEnd : WellFormedBound.Statement (.cycleEnd) := by
  simp [WellFormedBound.Statement, Instr.wellFormed]

theorem WellFormedBound.windowEvent (port : Port) : WellFormedBound.Statement (.windowEvent port) := by
  simp [WellFormedBound.Statement, Instr.wellFormed]

theorem WellFormedBound.transmissionEnd (port : Port) : WellFormedBound.Statement (.transmissionEnd port) := by
  simp [WellFormedBound.Statement, Instr.wellFormed]

theorem WellFormedBound.unknownRequestKind : WellFormedBound.Statement (.unknownRequestKind) := by
  simp [WellFormedBound.Statement, Instr.wellFormed]

theorem WellFormedBound.identify : WellFormedBound.Statement (.identify) := by
  simp [WellFormedBound.Statement, Instr.wellFormed]

theorem WellFormedBound.readStatus : WellFormedBound.Statement (.readStatus) := by
  simp [WellFormedBound.Statement, Instr.wellFormed]

theorem WellFormedBound.readStreamCounters : WellFormedBound.Statement (.readStreamCounters) := by
  simp [WellFormedBound.Statement, Instr.wellFormed]

theorem WellFormedBound.readPortCounters : WellFormedBound.Statement (.readPortCounters) := by
  simp [WellFormedBound.Statement, Instr.wellFormed]

theorem WellFormedBound.readEntries : WellFormedBound.Statement (.readEntries) := by
  simp [WellFormedBound.Statement, Instr.wellFormed]

theorem WellFormedBound.stageStreamEntries : WellFormedBound.Statement (.stageStreamEntries) := by
  simp [WellFormedBound.Statement, Instr.wellFormed]

theorem WellFormedBound.stageWindowEntries : WellFormedBound.Statement (.stageWindowEntries) := by
  simp [WellFormedBound.Statement, Instr.wellFormed]

theorem WellFormedBound.stageBaseRecord : WellFormedBound.Statement (.stageBaseRecord) := by
  simp [WellFormedBound.Statement, Instr.wellFormed]

theorem WellFormedBound.copyActiveToShadow : WellFormedBound.Statement (.copyActiveToShadow) := by
  simp [WellFormedBound.Statement, Instr.wellFormed]

theorem WellFormedBound.commit : WellFormedBound.Statement (.commit) := by
  simp [WellFormedBound.Statement, Instr.wellFormed]

theorem WellFormedBound.cancelCommit : WellFormedBound.Statement (.cancelCommit) := by
  simp [WellFormedBound.Statement, Instr.wellFormed]

theorem WellFormedBound.portControl : WellFormedBound.Statement (.portControl) := by
  simp [WellFormedBound.Statement, Instr.wellFormed]

theorem WellFormedBound.retrieveRetained : WellFormedBound.Statement (.retrieveRetained) := by
  simp [WellFormedBound.Statement, Instr.wellFormed]

theorem WellFormedBound.requeueRetained : WellFormedBound.Statement (.requeueRetained) := by
  simp [WellFormedBound.Statement, Instr.wellFormed]

theorem WellFormedBound.flushRetained : WellFormedBound.Statement (.flushRetained) := by
  simp [WellFormedBound.Statement, Instr.wellFormed]

theorem WellFormedBound.clearCounters : WellFormedBound.Statement (.clearCounters) := by
  simp [WellFormedBound.Statement, Instr.wellFormed]

theorem WellFormedBound.queueReset : WellFormedBound.Statement (.queueReset) := by
  simp [WellFormedBound.Statement, Instr.wellFormed]

theorem WellFormedBound.deviceReset : WellFormedBound.Statement (.deviceReset) := by
  simp [WellFormedBound.Statement, Instr.wellFormed]

theorem WellFormedBound.deviceResetEffect : WellFormedBound.Statement (.deviceResetEffect) := by
  simp [WellFormedBound.Statement, Instr.wellFormed]

theorem WellFormedBound.powerOnHold : WellFormedBound.Statement (.powerOnHold) := by
  simp [WellFormedBound.Statement, Instr.wellFormed]

end Sys2Proof.Laws
end

