-- ==== Sys2Proof/Laws/Replies.lean ====
section
/-! SUPPORT. What building and queueing a reply does, said once (R68, R136, R140, R141), and what the step of a request row
does with the request it takes (R139). -/

namespace Sys2Proof.Machine

open Sys2Proof

@[simp] theorem beBytes_length (k n : Nat) : (beBytes k n).length = k := by
  induction k with
  | zero => rfl
  | succ k ih => simp [beBytes, ih]

theorem foldl_beBytes (k n acc : Nat) :
    (beBytes k n).foldl (fun acc (b : Byte) => acc * 256 + b.toNat) acc = acc * 256 ^ k + n % 256 ^ k := by
  induction k generalizing acc with
  | zero => simp [beBytes, Nat.mod_one]
  | succ k ih =>
    simp only [beBytes, List.foldl_cons, ih]
    have hb : (BitVec.ofNat 8 (n / 256 ^ k)).toNat = (n / 256 ^ k) % 256 := by simp
    rw [hb, pow_succ, Nat.mod_mul]
    ring

/-- A number written in bytes is read back, modulo what the bytes hold. -/
theorem numAt_beBytes (l r : List Byte) (k n : Nat) : numAt (l ++ beBytes k n ++ r) l.length k = n % 256 ^ k := by
  simp only [numAt, beNat]
  rw [List.append_assoc, List.drop_left' rfl, List.take_left' (beBytes_length k n), foldl_beBytes]
  simp

theorem replyBytes_length (r : Reply) (node epoch : Byte) (g : W16) :
    (replyBytes r node epoch g).length = replyLength r := by
  simp [replyBytes, headerBytes, replyLength]
  omega

/-- The frame store's bytes once a reply is built in a slot. -/
theorem State.readByte_buildReply (s : State) (slot : Nat) (r : Reply) (hs : slot < Config.slots)
    (hl : replyLength r ≤ Config.slotBytes) (a : Nat) :
    readByte (s.buildReply slot r).store.mem a =
      if slotBase slot ≤ a ∧ a < slotBase slot + replyLength r then
        byteAt (replyBytes r s.base.node s.mgmt.epoch s.gen.number) (a - slotBase slot)
      else readByte s.store.mem a := by
  have hlen := replyBytes_length r s.base.node s.mgmt.epoch s.gen.number
  simp only [State.buildReply, State.writeSlot, hs, if_true]
  rw [List.take_of_length_le (by rw [hlen]; exact hl)]
  split
  · rename_i h
    obtain ⟨i, rfl⟩ : ∃ i, a = slotBase slot + i := ⟨a - slotBase slot, by omega⟩
    rw [readByte_writeBytes _ _ _ i (by rw [hlen]; omega)]
    have hi : i < (replyBytes r s.base.node s.mgmt.epoch s.gen.number).length := by rw [hlen]; omega
    simp [byteAt, hi]
  · rename_i h
    rw [readByte_writeBytes_other]
    rw [hlen]
    omega

/-- Building a reply and appending it, whatever the management state is then set to. -/
theorem State.sendReply_eq (s : State) (p : Port) (slot : Nat) (r : Reply) (hs : slot < Config.slots) (m : Management) :
    ({ s.sendReply p slot r with mgmt := m } : State) =
      let d := if s.mgmtAnswer p s.mgmtClass = .accepted then
          s.append p s.mgmtClass (mgmtDesc slot s.mgmtClass (replyLength r))
        else (s.countPort p PortCounters.incMgmtLost).releaseSlot slot
      { d with store := { d.store with mem := (s.buildReply slot r).store.mem }, mgmt := m } := by
  have h1 : (s.buildReply slot r).mgmtAnswer p (s.buildReply slot r).mgmtClass = s.mgmtAnswer p s.mgmtClass := by
    simp only [State.buildReply, State.writeSlot, hs, if_true]
    rfl
  have hrel : ∀ q : PortCounters → PortCounters, ((s.buildReply slot r).countPort p q).releaseSlot slot =
      { (s.countPort p q).releaseSlot slot with
        store := { ((s.countPort p q).releaseSlot slot).store with mem := (s.buildReply slot r).store.mem } } := by
    intro q
    simp only [State.buildReply, State.writeSlot, hs, if_true, State.releaseSlot, State.slotCount, State.countPort,
      State.modPort]
    split <;> rfl
  simp only [State.sendReply, State.appendReply, h1]
  cases s.mgmtAnswer p s.mgmtClass
  · simp only [if_true]
    simp only [State.append, State.setEgress, State.raise, State.egress, State.buildReply, State.writeSlot, hs, if_true]
    rfl
  all_goals simp only [reduceCtorEq, if_false, hrel]

/-- A reply that is built and appended is queued as `State.ReplyQueued` says. -/
theorem State.sendReply_queued (s : State) (p : Port) (slot : Nat) (r : Reply) (hs : slot < Config.slots)
    (hl : replyLength r ≤ Config.slotBytes) : s.ReplyQueued (s.sendReply p slot r) p slot r s.mgmt := by
  have hm : (s.sendReply p slot r).mgmt = s.mgmt := by simp
  have he : s.sendReply p slot r = { s.sendReply p slot r with mgmt := s.mgmt } := by rw [← hm]
  rw [he, State.sendReply_eq s p slot r hs s.mgmt]
  exact ⟨fun a => State.readByte_buildReply s slot r hs hl a, _, rfl, rfl⟩

/-- An immediate reply (R140): built, recorded, queued, and the engine IDLE. -/
theorem State.answer_queued (s : State) (req : Request) (st : Status) (res : Nat) (data : List Byte)
    (hs : req.slot < Config.slots) (hl : data.length ≤ 482) :
    s.ReplyQueued (s.answer req st res data) req.ingress req.slot (s.plainReply req st res data)
      (s.mgmt.answeredTo req st .idle) := by
  have hl' : replyLength (s.plainReply req st res data) ≤ Config.slotBytes := by
    simp [replyLength, State.plainReply, Config.slotBytes]
    omega
  have hm : (s.answer req st res data).mgmt = s.mgmt.answeredTo req st .idle := by
    have hk : ((s.recordAnswer req.requester req.tag req.kind st).sendReply req.ingress req.slot
        (s.plainReply req st res data)).mgmt = (s.recordAnswer req.requester req.tag req.kind st).mgmt := by simp
    have hk' : (s.answer req st res data).mgmt =
        { ((s.recordAnswer req.requester req.tag req.kind st).sendReply req.ingress req.slot
          (s.plainReply req st res data)).mgmt with engine := .idle } := rfl
    rw [hk', hk]
    simp [State.recordAnswer, Management.answeredTo, remember, List.drop_one]
  have he : s.answer req st res data =
      { (s.recordAnswer req.requester req.tag req.kind st).sendReply req.ingress req.slot
        (s.plainReply req st res data) with mgmt := (s.answer req st res data).mgmt } := rfl
  rw [he, hm, State.sendReply_eq (s.recordAnswer req.requester req.tag req.kind st) req.ingress req.slot _ hs]
  refine ⟨fun a => ?_, _, rfl, ?_⟩
  · exact State.readByte_buildReply (s.recordAnswer req.requester req.tag req.kind st) req.slot
      (s.plainReply req st res data) hs hl' a
  · have ha : (s.recordAnswer req.requester req.tag req.kind st).mgmtAnswer req.ingress
        (s.recordAnswer req.requester req.tag req.kind st).mgmtClass = s.mgmtAnswer req.ingress s.mgmtClass := rfl
    rw [ha]
    split
    · rfl
    · simp only [State.releaseSlot, State.slotCount, State.countPort, State.modPort, State.recordAnswer]
      split <;> rfl

/-- The take (R139), when the current request is known. -/
theorem State.take_of_takes {s s1 : State} {req : Request} {held : Bool} (h : s.Takes s1 req held) :
    s.power = .running ∧ s.take = s1 ∧ s1.mgmt.engine = .executing req held := by
  obtain ⟨hp, ⟨he, rfl⟩ | ⟨he, rest, hr, hh, rfl⟩⟩ := h
  · exact ⟨hp, by simp [State.take, he], he⟩
  · exact ⟨hp, by simp [State.take, he, hr, ← hh], rfl⟩

/-- The step of a request row, when the current request is one of its kind. -/
theorem State.runRequest_of_takes {s s1 : State} {req : Request} {held : Bool} (h : s.Takes s1 req held)
    {mine : Byte → Bool} (body : Request → State → State) (hm : mine req.kind = true) :
    State.runRequest mine body s = (State.runTaken body req held s1).settle := by
  obtain ⟨hp, ht, he⟩ := State.take_of_takes h
  simp [State.runRequest, hp, ht, he, hm]

/-- A request row whose body changes the part to `s2` and then answers. -/
theorem answers_of_body {s s1 s2 : State} {req : Request} {c : Instr} {mine : Byte → Bool}
    {body : Request → State → State} {st : Status} {res : Nat} {data : List Byte}
    (hc : exec c s = .next (State.runRequest mine body s)) (hr : s.Runs s1 req) (hm : mine req.kind = true)
    (hb : body req s1 = s2.answer req st res data) (hl : data.length ≤ 482) : Answers c s s2 req st res data := by
  obtain ⟨ht, hf, hs⟩ := hr
  refine ⟨s2.answer req st res data, ?_, State.answer_queued _ _ _ _ _ hs hl⟩
  rw [hc, State.runRequest_of_takes ht body hm]
  simp [State.runTaken, hf, hb]

/-- The decision on a traffic append (R67), in the words of the rule. -/
theorem State.trafficAnswer_eq (s : State) (p : Port) (c : Cls) : s.trafficAnswer p c =
    if (s.port p).state ≠ .up then .portNotUp
    else if ((s.base.limits.get p).get c).toNat ≤ (s.egress p c).length ∨ 128 ≤ (s.egress p c).length then .atLimit
    else if s.descsFree = 0 then .noDescriptor
    else .accepted := by
  simp only [State.trafficAnswer, State.isUp, Config.queueCap]
  by_cases h : (s.port p).state = .up <;> simp [h]
  congr

end Sys2Proof.Machine
end

