-- ==== Sys2Proof/Laws/Queues.lean ====
section
/-! SUPPORT. What appends do to the queues and the pool, when a requeue moves a record, and when a gate's bound is eased. -/

namespace Sys2Proof.Machine

open Sys2Proof

/-- An accepted append takes one descriptor from the pool (R65, R67). -/
@[simp] theorem State.descsInUse_append (s : State) (p : Port) (c : Cls) (d : Desc) :
    (s.append p c d).descsInUse = s.descsInUse + 1 := by
  unfold State.descsInUse State.append State.setEgress State.egress State.raise
  cases p <;> fin_cases c <;> simp [Trio.toList, Trio.set, Trio.get, Quad.toList, Quad.set, Quad.get] <;> omega

/-- A record moves exactly when it is not CAPTURED, its port is UP, its queue is below its limit and below 128, and a
descriptor is free (R67, R114). -/
theorem State.requeueStop_eq_none (s : State) (r : Record) : s.requeueStop r = none ↔
    r.reason ≠ .captured ∧ s.descsInUse < 512 ∧ ∃ p, r.egress = some p ∧ (s.port p).state = .up ∧
      (s.egress p r.cls).length < ((s.base.limits.get p).get r.cls).toNat ∧ (s.egress p r.cls).length < 128 := by
  have hf : s.descsFree = 0 ↔ 512 ≤ s.descsInUse := by simp [State.descsFree, Config.descriptors]; omega
  unfold State.requeueStop
  split
  · simp [*]
  · split
    · simp [*]
    · rename_i p hp
      rw [State.trafficAnswer_eq]
      simp only [hf]
      by_cases h1 : (s.port p).state = .up <;>
        by_cases h2 : ((s.base.limits.get p).get r.cls).toNat ≤ (s.egress p r.cls).length ∨
          128 ≤ (s.egress p r.cls).length <;>
        by_cases h3 : 512 ≤ s.descsInUse <;> simp [*] <;> omega

/-- A bound is eased when there was one, and there is none now or a higher one (R82). -/
theorem boundEased_iff (old new : Option Nat) :
    boundEased old new = true ↔ ∃ b, old = some b ∧ ∀ b', new = some b' → b < b' := by
  cases old <;> cases new <;> simp [boundEased]

/-- Queues that hold only descriptors of the queues before keep every frame in the queue of its class. -/
theorem State.QueuedByClass.of_mem {s t : State} (h : s.QueuedByClass)
    (hm : ∀ p c, ∀ d ∈ t.egress p c, d ∈ s.egress p c) : t.QueuedByClass :=
  fun p c d hd => h p c d (hm p c d hd)

/-- An append to the queue of the descriptor's class keeps every frame in the queue of its class. -/
theorem State.QueuedByClass.append {s : State} (h : s.QueuedByClass) (p : Port) (d : Desc) :
    (s.append p d.cls d).QueuedByClass := by
  intro q e x hx
  rw [State.egress_append] at hx
  split at hx
  · next he =>
    obtain ⟨rfl, rfl⟩ := he
    simp only [List.mem_append, List.mem_singleton] at hx
    obtain hx | rfl := hx
    · exact h _ _ _ hx
    · rfl
  · exact h _ _ _ hx

end Sys2Proof.Machine
end

