-- ==== Sys2Proof/Laws/Starts.lean ====
section
/-! SUPPORT. The start opportunities: a port's arbiter touches its own port alone, and none is left once a command has taken
them (R97, R98). -/

namespace Sys2Proof.Machine

open Sys2Proof

theorem State.arbitrate_other (s : State) {p q : Port} (h : q ≠ p) :
    (s.arbitrate p).port q = s.port q ∧ ∀ c, (s.arbitrate p).egress q c = s.egress q c := by
  unfold State.arbitrate
  split
  · split
    · simp
    · unfold State.startSync
      split
      · simp
      · simp [State.port_modPort, h]
    · unfold State.startDesc
      split
      · simp
      · simp [State.port_modPort, h, State.egress_setEgress]
  · simp

theorem State.takeOpportunity_other (s : State) {p q : Port} (h : q ≠ p) :
    (s.takeOpportunity p).port q = s.port q ∧ (∀ c, (s.takeOpportunity p).egress q c = s.egress q c) ∧
      (s.takeOpportunity p).opportunities.get q = s.opportunities.get q := by
  unfold State.takeOpportunity
  split
  · have := State.arbitrate_other (s.lower p) h
    exact ⟨by simpa using this.1, by simpa using this.2, by simp [Trio.get_set_other _ _ h]⟩
  · simp

theorem State.takeOpportunity_same (s : State) (p : Port) : (s.takeOpportunity p).opportunities.get p = false := by
  unfold State.takeOpportunity
  split
  · simp
  · simp_all

/-- No start opportunity is left at the end of a command. -/
theorem State.opportunities_settle (s : State) : s.settle.opportunities = ⟨false, false, false⟩ := by
  have hA := State.takeOpportunity_same s .A
  have hB := State.takeOpportunity_same (s.takeOpportunity .A) .B
  have hL := State.takeOpportunity_same ((s.takeOpportunity .A).takeOpportunity .B) .L
  have hAB := (State.takeOpportunity_other (s.takeOpportunity .A) (p := .B) (q := .A) (by decide)).2.2
  have hAL := (State.takeOpportunity_other ((s.takeOpportunity .A).takeOpportunity .B) (p := .L) (q := .A)
    (by decide)).2.2
  have hBL := (State.takeOpportunity_other ((s.takeOpportunity .A).takeOpportunity .B) (p := .L) (q := .B)
    (by decide)).2.2
  simp only [State.settle, allPorts, List.foldl_cons, List.foldl_nil]
  generalize ((s.takeOpportunity .A).takeOpportunity .B).takeOpportunity .L = t at *
  cases ht : t.opportunities
  simp_all [Trio.get]

end Sys2Proof.Machine
end

