-- ==== Sys2Proof/Tests/Slice0.lean ====
section
/-! SUPPORT. Tests of single steps, most of them worked examples of the spec, and for every obligation with hypotheses a
theorem that shows states and operands that meet them, clause by clause and at the boundaries of their ranges. -/

namespace Sys2Proof.Tests

open Sys2Proof Sys2Proof.Machine

-- One after another: each kernel evaluation below would otherwise wait for those before it on a thread of its own.
set_option Elab.async false

/-! ### Small states and frames -/

/-- The state after a command that answers a next state. -/
def result (c : Instr) (s : State) : State :=
  match exec c s with
  | .next t => t
  | .fault _ => s
  | .refused _ => s

/-- A part after power-on whose three ports are UP. -/
def up : State := { State.reset with ports := Trio.all (PortUnit.initial .up 0 true) }

/-- `up` with another active base record. -/
def upWith (b : BaseRecord) : State := { up with gen := { up.gen with active := { up.gen.active with base := b } } }

/-- The default base record. -/
def base0 : BaseRecord := BaseRecord.initial 0

/-- A part with a reception in progress on a port. -/
def receiving (p : Port) (rx : Reception) (s : State) : State := s.modPort p fun u => { u with rx := some rx }

/-- A reception that began at quantum 0. -/
def rxOf (slot : Option Nat) (kind : Option Byte) : Reception := ⟨slot, kind, ⟨40, 3, 2210⟩, 0, true⟩

/-- A frame of zeros with a sound check. -/
def frameOf (dst src kind seq : Byte) (tag : W16) (length : Nat) : List Byte :=
  recheck (headerBytes dst src kind seq tag length ++ List.replicate (length - 16) 0)

/-- A SYNC frame for cycle `index` of round 40. -/
def syncOf (index : Byte) (correction : W32) : List Byte := syncBytes ⟨255, 254, 0, 0, 40, index, correction⟩

/-- A part that receives a SYNC on its timing port A, the reception begun at position `pos` of (40, 3). -/
def syncing (st : SyncState) (good pos : Nat) : State :=
  receiving .A ⟨none, some 0x02, ⟨40, 3, pos⟩, 0, true⟩ { up with
    refCount := 320
    timer := { Timer.initial with round := 40, index := 3, position := pos + 320, sync := st, good := good } }

/-- An arrival on port A of a DATA frame that stands in slot 17. -/
def arrivalOf (length : Nat) (sequence : Byte) (tag : W16) : Arrival :=
  { port := .A, slot := 17, stamp := ⟨⟨40, 3, 2210⟩, 9003⟩, dst := 17, src := 254, kind := 0x01, sequence := sequence
    tag := tag, length := length }

/-- A valid entry that accepts every DATA frame from A and sends it to B in class 1. -/
def entryB : StreamEntry := { StreamEntry.blank with
  valid := true, ports := 1, kinds := 1, srcAny := true, dstAny := true, tagHigh := 0xFFFF, route := .port .B, cls := 1
  maxWait := 1, maxLength := 512 }

/-- A descriptor of stream 7 on slot 30. -/
def descOf (late : LatePolicy) (maxWait : Option Nat) (cycleCount : W32) : Desc :=
  { slot := 30, origin := .stream 7, cls := 1, late := late, maxWait := maxWait
    stamp := some ⟨⟨40, 3, 2210⟩, cycleCount⟩, ingress := some .A, length := 64 }

/-- A retention record of stream 7 on a slot. -/
def recordOf (slot : Nat) (reason : Reason) : Record :=
  { slot := slot, reason := reason, stream := 7, ingress := .A, egress := some .B, cls := 1, maxWait := some 1
    stamp := ⟨40, 3, 2210⟩, length := 500 }

/-- A transmission of a descriptor or SYNC frame that began at quantum 0. -/
def txOf (x : Sending) : Transmission := ⟨x, 0, 760, []⟩

/-- A request of node 9 with tag 1234h that stands in slot 0 and came in on L. -/
def requestOf (kind flags : Byte) (length : Nat) : Request :=
  { slot := 0, requester := 9, tag := 0x1234, kind := kind, flags := flags, ingress := .L, length := length }

/-- `s` with its engine executing such a request, with a given parameter block. -/
def asking (kind flags : Byte) (params : List Byte) (s : State) : State := { s with
  store := { mem := writeBytes [] 0x14 params, count := 1 :: List.replicate 383 0, free := (List.range 384).tail }
  mgmt := { s.mgmt with engine := .executing (requestOf kind flags (max 32 (24 + params.length))) false } }

/-- The request that `asking` executes. -/
def askedOf (kind flags : Byte) (params : List Byte) : Request := requestOf kind flags (max 32 (24 + params.length))

/-- A part whose engine executes a request of sound form runs it. -/
theorem runs_of_executing {s : State} {req : Request} (hp : s.power = .running)
    (he : s.mgmt.engine = .executing req false) (hf : s.formOk req = true) (hs : req.slot < 384) : s.Runs s req :=
  ⟨⟨hp, .inl ⟨he, rfl⟩⟩, hf, hs⟩

/-- A request that `asking` puts to a part out of reset runs when its form is sound. -/
theorem asking_runs (kind flags : Byte) (params : List Byte) (s : State) (hp : s.power = .running)
    (hf : (asking kind flags params s).formOk (askedOf kind flags params) = true) :
    (asking kind flags params s).Runs (asking kind flags params s) (askedOf kind flags params) :=
  runs_of_executing hp rfl hf (show 0 < 384 by decide)

/-- The bytes of the reply that stands in slot 0 after a request. -/
def replyIn (t : State) : List Byte := t.slotBytes 0 64

/-! ### Well-formed commands -/

theorem test_wellFormed_refuses_a_strap_value_over_127 :
    (Instr.powerOn 128).wellFormed = false ∧ (Instr.pinReset 128).wellFormed = false := by decide

theorem test_wellFormed_accepts_the_largest_strap_value :
    (Instr.powerOn 127).wellFormed = true ∧ (Instr.pinReset 127).wellFormed = true := by decide

theorem test_no_word_spells_a_command : decodeTableWord 8 0x12 = none ∧ (up.withFetchWord 8 0x12).pending = [] := by
  decide +kernel

/-! ### Formats (12.1 to 12.5) -/

/-- The CRC of R169 over the nine digits "123456789" (the usual check value, PRESUMED: not of the spec). -/
theorem test_crc32_check_value :
    crc32 [0x31, 0x32, 0x33, 0x34, 0x35, 0x36, 0x37, 0x38, 0x39] = 0xCBF43926 := by decide +kernel

theorem test_images_have_their_lengths : (streamImage entryB).length = 32 ∧
    (windowImage WindowEntry.blank).length = 16 ∧ (baseImage base0).length = 64 := by decide +kernel

/-- A step threshold of 3,125 is below half of L = 6,251, and one of 3,126 is not (R125, base check 5). -/
theorem test_step_threshold_of_an_odd_length :
    let bank := fun n : W24 => { Bank.initial 0 with base := { base0 with cycleLength := 6251, stepThreshold := n } }
    (bank 3125).validate = none ∧ (bank 3126).validate = some ⟨0, 5, 0⟩ := by decide +kernel

theorem test_default_bank_is_valid : (Bank.initial 127).validate = none := by decide +kernel

/-- The last entry of a table, valid and failing: a window open from 0 to 100 with an empty class set (check 2), and a
stream with port A and an empty kind set (check 2, R125). -/
theorem test_validation_names_the_last_entries :
    let bank := Bank.initial 0
    let w := { WindowEntry.blank with valid := true, closeOffset := 100 }
    let e := { StreamEntry.blank with valid := true, ports := 1 }
    { bank with windows := bank.windows.set 63 w }.validate = some ⟨1, 2, 63⟩ ∧
    { bank with streams := bank.streams.set 255 e }.validate = some ⟨2, 2, 255⟩ := by decide +kernel

/-! ### The cycle timer and the servo (2.3, 2.4, 11.2) -/

/-- The sixth row of the trim table in 2.3: 220 + 300 = 520 gives q 2, residue 8, length 125,002. -/
theorem test_trim_releases_two_quanta :
    let t := Timer.fixLength 125000 { Timer.initial with trim := 300, residue := 220 }
    t.residue = 8 ∧ t.effLength = 125002 := by decide +kernel

/-- A trim of -100 at its third cycle (2.3): q is -1 and -44 is kept. -/
theorem test_trim_truncates_toward_zero :
    let t := Timer.fixLength 125000 { Timer.initial with trim := -100, residue := -200 }
    t.residue = -44 ∧ t.effLength = 124999 := by decide +kernel

/-- The four cases of the error computation in 2.4, with link delay 600. -/
theorem test_servo_error_table :
    let b := { base0 with linkDelay := 600 }
    servoError b ⟨40, 3, 2452⟩ 2440 = (12, 40, 3) ∧ servoError b ⟨40, 3, 124000⟩ 2440 = (-3440, 40, 4) ∧
      servoError b ⟨41, 1, 497⟩ 500 = (-3, 41, 1) ∧ servoError b ⟨40, 5, 2430⟩ 2440 = (-10, 40, 5) ∧
      expectedPoint b ⟨0, 0, 0, 0, 40, 7, 249900⟩ = (41, 1, 500) := by decide +kernel

/-- SYNC 1 of 11.2: the step lands at (40, 3, 2160) in ACQUIRING, and B sends the frame with correction 2160 at once. -/
theorem test_first_sync_steps :
    let s := receiving .A ⟨none, some 0x02, ⟨0, 0, 80000⟩, 80000, true⟩ { up with
      refCount := 80320, timer := { Timer.initial with position := 80320 } }
    let t := result (.receptionEnd .A (syncOf 3 1840)) s
    t.timer.round = 40 ∧ t.timer.index = 3 ∧ t.timer.position = 2160 ∧ t.timer.sync = .acquiring ∧
      (t.port .B).tx.map Transmission.sending = some (.sync ⟨255, 254, 0, 0, 40, 3, 2160⟩) := by decide +kernel

/-- SYNC 2 of 11.2: Err +40 gives trim 160 and slew +20, and the good count is 0. -/
theorem test_second_sync_corrects :
    let t := result (.receptionEnd .A (syncOf 3 0)) (syncing .acquiring 0 40)
    t.timer.trim = 160 ∧ t.timer.slew = some 20 ∧ t.timer.good = 0 ∧ t.timer.sync = .acquiring := by decide +kernel

/-- SYNC 10 of 11.2: the eighth in-window SYNC locks the part. -/
theorem test_eighth_good_sync_locks :
    let t := result (.receptionEnd .A (syncOf 3 0)) (syncing .acquiring 7 2)
    t.timer.good = 8 ∧ t.timer.sync = .locked ∧ t.timer.slew = some 1 := by decide +kernel

/-! ### Classification (3.3, 3.4) -/

/-- The first-match table of 3.3. -/
def firstMatch : List StreamEntry :=
  (((List.replicate 256 StreamEntry.blank).set 3
      { entryB with dstAny := false, dst := 17, tagLow := 100, tagHigh := 199 }).set 9
      { entryB with ports := 3, srcAny := false, src := 254 }).set 40
    { entryB with ports := 7, kinds := 15, action := .drop }

theorem test_first_match :
    let s := { up with gen := { up.gen with active := { up.gen.active with streams := firstMatch } } }
    (s.selectEntry (arrivalOf 64 0 150)).map Prod.fst = some 3 ∧
      (s.selectEntry (arrivalOf 64 0 250)).map Prod.fst = some 9 ∧
      (s.selectEntry { arrivalOf 64 0 150 with port := .B, kind := 0x04, src := 30 }).map Prod.fst = some 40 := by
  decide +kernel

/-- Frames 3 and 4 of the budget example in 3.4: 1,200 is over and demoted, 1,000 fits. -/
theorem test_budget_demotes :
    let e := { entryB with budget := 1000, overBudget := .demote }
    let s := up.modStream 12 fun st => { st with budgetUsed := 800 }
    (s.budgetStep 12 e (arrivalOf 400 0 0)).2 = some 3 ∧
      ((s.budgetStep 12 e (arrivalOf 400 0 0)).1.stream 12).budgetUsed = 800 ∧
      ((s.budgetStep 12 e (arrivalOf 400 0 0)).1.stream 12).counters.overBudget = 1 ∧
      (s.budgetStep 12 e (arrivalOf 200 0 0)).2 = some 1 ∧
      ((s.budgetStep 12 e (arrivalOf 200 0 0)).1.stream 12).budgetUsed = 1000 := by decide +kernel

/-- The worked example that ends chapter 3: a frame of 300 bytes under a max frame length of 256 is counted, stamped,
dropped, and its slot joins the tail of the free list. -/
theorem test_oversize_is_dropped :
    let e := { entryB with maxLength := 256, capture := true, monitor := .count }
    let s := { up with store := { up.store with count := up.store.count.set 17 1, free := [1, 2] } }
    let t := s.classifyMatched 5 e (arrivalOf 300 29 512)
    (t.stream 5).counters.matched = 1 ∧ (t.stream 5).counters.dropped = 1 ∧ (t.stream 5).expectation = none ∧
      (t.stream 5).stamp = some ⟨40, 3, 2210⟩ ∧ t.slotCount 17 = 0 ∧ t.store.free = [1, 2, 17] := by decide +kernel

/-! ### Gates, lateness and ports (5.6, 11.4, 11.5) -/

/-- Frame h of 11.4 never passes W's guard, and frame k does. -/
theorem test_guard_bound : passesGuard 10000 500 (some 12000) = false ∧ passesGuard 10000 64 (some 12000) = true := by
  decide

/-- The close in cycle count 9,003 of the lateness example in 5.6: d1 is late and retained, as the 32nd record. -/
theorem test_lateness_check :
    let s := (up.setEgress .A 1 [descOf .retain (some 1) 9001, descOf .retain (some 1) 9002,
      descOf .hold (some 3) 8990]).setRecords (List.replicate 31 (recordOf 1 .late))
    let t := State.checkQueue .A { s with timer := { s.timer with cycleCount := 9003 } } 1
    t.egress .A 1 = [descOf .retain (some 1) 9002, descOf .hold (some 3) 8990] ∧
      (t.stream 7).counters.late = 1 ∧ t.retention.records.length = 32 ∧ t.retention.overflow = 0 := by decide +kernel

/-- The third bad check on L in 11.5: d2 and d5 become records, rp is lost and u is dropped uncounted. -/
theorem test_port_loss :
    let d := { descOf .retain (some 1) 7000 with origin := .stream 5 }
    let s := ((up.modPort .L fun u => { u with bad := 2, tx := some (txOf (.desc d)) }).setEgress .L 1
      [{ d with slot := 31 }]).setEgress .L 2 [mgmtDesc 32 2 40]
    let s := { (s.setEgress .L 3 [unmatchedDesc { arrivalOf 64 0 0 with slot := 33 }]).setRecords
      (List.replicate 30 (recordOf 1 .late)) with refCount := 12500 }
    let t := result (.linkCheck .L false) s
    (t.port .L).state = .down ∧ (t.port .L).counters.aborted = 1 ∧ (t.port .L).counters.mgmtLost = 1 ∧
      (t.retention.records.drop 30).map Record.reason = [.aborted, .portDown] ∧
      (t.stream 5).counters.dropped = 0 := by decide +kernel

/-- The third good check, 37,500 quanta after the power-on (R168). -/
theorem test_third_good_check_brings_up :
    let s := { State.reset.modPort .A fun u => { u with good := 2, lastCheck := 25000 } with refCount := 37500 }
    (result (.linkCheck .A true) s).isUp .A = true := by decide +kernel

/-- A reception takes slot 0 first (R74). -/
theorem test_reception_start_takes_slot_0 :
    ((result (.receptionStart .B) up).port .B).rx.map Reception.slot = some (some 0) := by decide +kernel

theorem test_kind_sync_releases_the_slot :
    let t := result (.kindFieldReceived .B 0x02) (result (.receptionStart .B) up)
    t.slotCount 0 = 0 ∧ t.store.free.length = 384 := by decide +kernel

theorem test_window_event_opens :
    let w : WindowEntry := { WindowEntry.blank with
      valid := true, port := .B, classes := 2, guarded := true, openOffset := 10000, closeOffset := 12000
      indexMatch := 0xFF, modulus := 1 }
    let s := upWith { base0 with scheduled := Trio.all 2 }
    let s := { s with
      timer := { s.timer with position := 10000 }
      gen := { s.gen with active := { s.gen.active with windows := [w] } } }
    let t := result (.windowEvent .B) s
    (t.gates.get .B).gate.get 1 = true ∧ (t.gates.get .B).bound.get 1 = some 12000 := by decide +kernel

theorem test_transmission_end_forwards :
    let s := { up.modPort .B fun u => { u with tx := some (txOf (.desc (descOf .drop none 0))) } with refCount := 760 }
    let t := result (.transmissionEnd .B) s
    (t.port .B).tx = none ∧ (t.port .B).counters.sent = 1 ∧ (t.stream 7).counters.forwarded = 1 := by decide +kernel

/-! ### Generations and requests (8.6, 10, 11.3, 11.4) -/

/-- A pending commit of node 254. -/
def commitOf (target : Target) (slot : Option Nat) : Commit := ⟨254, 103, .A, slot.isNone, target, slot⟩

/-- A part in its last quantum of round 40 at generation 6, with a pending commit. -/
def roundEnd (st : SyncState) (c : Option Commit) : State := { up with
  timer := { Timer.initial with position := 125000, index := 7, round := 40, sync := st }
  gen := { up.gen with number := 6, commit := c } }

/-- Step 5 of the example in 8.6: the swap, and the reply DONE with generation 7 in slot 88. -/
theorem test_next_round_swaps :
    let t := result .cycleEnd (roundEnd .free (some (commitOf .nextRound (some 88))))
    t.gen.number = 7 ∧ t.gen.commit = none ∧ t.timer.round = 41 ∧
      (t.slotBytes 88 24).drop 0x12 = [0x0A, 0, 0, 1, 0, 7] := by decide +kernel

/-- Part 13 of 11.3: NOT_SYNCED files a condition with the target round. -/
theorem test_not_synced_files_a_condition :
    let t := result .cycleEnd (roundEnd .acquiring (some (commitOf (.atRound 41) none)))
    t.gen.number = 6 ∧ t.mgmt.conditions = [⟨254, 103, 0x0A, .notSynced, .round 41, 0⟩] := by decide +kernel

/-- The READ STATUS of 11.3 that finds a condition: data 2001, COMMIT, NOT_SYNCED, 500, 0. -/
theorem test_condition_is_delivered :
    let s := (up.setConditions [⟨9, 2001, 0x0A, .notSynced, .round 500, 0⟩]).setEngine
      (.executing (requestOf 0x02 0 32) true)
    let t := result .readStatus s
    ((replyIn t).drop 0x12).take 15 = [0x02, 0x10, 2, 1, 0, 0, 0, 0, 0x07, 0xD1, 0x0A, 0x0C, 0x01, 0xF4, 0] := by
  decide +kernel

theorem test_identify_data :
    ((replyIn (result .identify (asking 0x01 0 [] { up with straps := 12 }))).drop 0x1A).take 14 =
      [0x14, 0x07, 0x01, 0xA0, 1, 3, 4, 1, 0x80, 1, 0, 64, 32, 12] := by decide +kernel

/-- The RETRIEVE RETAINED of 11.4: residue 28. -/
theorem test_retrieve_residue :
    let t := result .retrieveRetained (asking 0x0D 0 [] (up.setRecords [recordOf 70 .late]))
    ((replyIn t).drop 0x13).take 7 = [0, 0, 1, 0, 0, 0, 28] ∧ t.retention.records = [] := by decide +kernel

theorem test_unknown_kind_is_bad_request :
    (replyIn (result .unknownRequestKind (asking 0x13 0 [] up))).getD 0x13 0 = 0x03 := by decide +kernel

theorem test_read_status_positions :
    let t := result .readStatus (asking 0x02 0 [] { up with timer := { Timer.initial with position := 258 } })
    numAt (t.slotBytes 0 100) 0x1F 4 = 258 ∧ numAt (t.slotBytes 0 100) (0x1A + 0x24) 2 = 383 := by decide +kernel

theorem test_read_stream_counters_clears :
    let s := up.countStream 244 fun c => { c with gaps := 5 }
    let t := result .readStreamCounters (asking 0x03 0 [244, 12, 1] s)
    numAt (t.slotBytes 0 60) (0x1A + 24) 4 = 5 ∧ (t.stream 244).counters.gaps = 0 := by decide +kernel

theorem test_read_port_counters_keeps :
    let s := up.countPort .B fun c => { c with sent := 3 }
    let t := result .readPortCounters (asking 0x04 0 [0] s)
    numAt (t.slotBytes 0 100) (0x1A + 40 + 20) 4 = 3 ∧ (t.port .B).counters.sent = 3 := by decide +kernel

theorem test_read_entries_base_image :
    ((result .readEntries (asking 0x05 0 [0, 2, 0, 1] up)).slotBytes 0 90).drop 0x1A = baseImage base0 := by
  decide +kernel

/-- A staged stream entry with action code 3 fails its encoding check, and the residue names its index (R121). -/
theorem test_stage_streams_refuses_a_bad_code :
    let bad := (streamImage entryB).set 0x0A 3
    let t := result .stageStreamEntries (asking 0x06 0 ([7, 2] ++ streamImage entryB ++ bad) up)
    (replyIn t).getD 0x13 0 = 0x04 ∧ (replyIn t).getD 0x19 0 = 8 ∧
      t.gen.shadow.streams[7]? = some StreamEntry.blank := by decide +kernel

theorem test_stage_windows_writes :
    let w := { WindowEntry.blank with port := .L, modulus := 3 }
    let t := result .stageWindowEntries (asking 0x07 0 ([63, 1] ++ windowImage w) up)
    t.gen.shadow.windows[63]? = some w ∧ (replyIn t).getD 0x13 0 = 0 := by decide +kernel

theorem test_stage_base_writes :
    (result .stageBaseRecord (asking 0x08 0 (baseImage { base0 with node := 77 }) up)).gen.shadow.base.node = 77 := by
  decide +kernel

theorem test_copy_active_to_shadow :
    (result .copyActiveToShadow (asking 0x09 0 [] (upWith { base0 with node := 77 }))).gen.shadow.base.node = 77 := by
  decide +kernel

/-- The COMMIT of 11.3: distance 20 with EARLY_ACK is ACCEPTED at once. -/
theorem test_commit_at_round_is_accepted :
    let s := { up with timer := { up.timer with round := 480 } }
    let t := result .commit (asking 0x0A 1 [1, 0x01, 0xF4] s)
    t.gen.commit = some ⟨9, 0x1234, .L, true, .atRound 500, none⟩ ∧ (replyIn t).getD 0x13 0 = 1 := by decide +kernel

/-- A default shadow with its management class made 0 fails base check 8 (R125). -/
theorem test_commit_invalid_tables :
    let s := { up with gen := { up.gen with shadow := { up.gen.shadow with base := { base0 with mgmtClass := 0 } } } }
    let t := result .commit (asking 0x0A 0 [0, 0, 0] s)
    t.gen.commit = none ∧ (replyIn t).getD 0x13 0 = 0x0B ∧ (replyIn t).getD 0x1B 0 = 8 := by decide +kernel

theorem test_cancel_commit :
    let t := result .cancelCommit (asking 0x0B 0 [] (up.setCommit (some (commitOf .nextRound (some 88)))))
    t.gen.commit = none ∧ (t.slotBytes 88 20).getD 0x13 0 = 0x0F ∧ (replyIn t).getD 0x13 0 = 0 := by decide +kernel

theorem test_disable_an_idle_port :
    let t := result .portControl (asking 0x0C 0 [1, 1] up)
    (t.port .B).state = .disabled ∧ (replyIn t).getD 0x13 0 = 0 := by decide +kernel

theorem test_disable_waits_for_the_transmitter :
    let s := up.modPort .B fun u => { u with tx := some (txOf (.desc (descOf .drop none 0))) }
    let t := result .portControl (asking 0x0C 0 [1, 1] s)
    (t.port .B).state = .disabling ∧ t.mgmt.engine = .idle ∧ (t.mgmt.portControl.get .B).isSome = true := by
  decide +kernel

theorem test_requeue_stops_at_captured :
    let s := up.setRecords [recordOf 70 .late, { recordOf 71 .captured with egress := none }]
    let t := result .requeueRetained (asking 0x0E 0 [5] s)
    ((replyIn t).drop 0x13).take 9 = [0, 0, 1, 0, 0, 0, 4, 1, 2] := by decide +kernel

theorem test_flush_reports_the_number_removed :
    let t := result .flushRetained (asking 0x0F 0 [] (up.setRecords [recordOf 70 .late, recordOf 71 .late]))
    t.retention.records = [] ∧ (replyIn t).getD 0x1A 0 = 2 := by decide +kernel

theorem test_clear_counters_of_streams_alone :
    let s := (up.countStream 9 fun c => { c with late := 1 }).countPort .A fun c => { c with sent := 1 }
    let t := result .clearCounters (asking 0x10 0 [0] s)
    (t.stream 9).counters.late = 0 ∧ (t.port .A).counters.sent = 1 := by decide +kernel

theorem test_queue_reset_empties :
    let s := (up.setEgress .A 1 [descOf .retain none 0]).setRecords [recordOf 70 .late]
    let t := result .queueReset (asking 0x11 0 [] s)
    t.egress .A 1 = [] ∧ t.retention.records = [] ∧ (t.stream 7).counters.dropped = 0 := by decide +kernel

theorem test_device_reset_sends_its_reply_and_drains :
    let t := result .deviceReset (asking 0x12 0 [] up)
    t.mgmt.engine = .stopped ∧ t.mgmt.drain = some ⟨some (.L, 2), 0⟩ ∧ (t.port .L).tx.isSome = true := by
  decide +kernel

/-! ### Resets (11.1, R149) -/

theorem test_power_on_latches_the_straps :
    let t := result (.powerOn 12) { up with power := .hold false }
    t.straps = 12 ∧ t.base.node = 12 ∧ t.mgmt.epoch = 1 ∧ (t.port .A).state = .qualifying := by decide +kernel

theorem test_epoch_wraps_to_1 :
    (result (.pinReset 0) { up with power := .resetLow, mgmt := Management.initial 255 }).mgmt.epoch = 1 := by
  decide +kernel

theorem test_assertion_stops_the_transmitters :
    let s := up.modPort .B fun u => { u with tx := some (txOf (.sync ⟨0, 0, 0, 0, 0, 0, 0⟩)) }
    let t := result .resetNAssertion s
    t.power = .resetLow ∧ (t.port .B).tx = none ∧ (t.port .B).counters.aborted = 0 := by decide +kernel

theorem test_device_reset_keeps_a_disabled_port :
    let s := (up.modPort .L fun u => { u with state := .disabled }).setDrain (some ⟨none, 0⟩)
    let t := result .deviceResetEffect s
    (t.port .L).state = .disabled ∧ (t.port .A).state = .qualifying ∧ t.mgmt.epoch = 2 := by decide +kernel

theorem test_power_on_hold_halts : (result .powerOnHold up).power = .hold false := by decide +kernel

/-! ### Witnesses: states and operands that meet the hypotheses of the obligations -/

theorem test_witness_StepRunsTheFrontCommand : ({ up with pending := [.cycleEnd, .identify] } : State).pending =
    .cycleEnd :: [.identify] := rfl

theorem test_witness_EmptyQueueStep :
    ({ up with power := .resetLow } : State).pending = [] ∧ ({ up with power := .resetLow } : State).power ≠ .running ∧
    State.reset.pending = [] ∧ State.reset.power = .running ∧
    ({ up with refCount := 12500 } : State).dueEvents =
      [.linkCheck .A true, .linkCheck .B true, .linkCheck .L true] ∧
    ({ up with refCount := 12499 } : State).dueEvents = [] := by decide +kernel

theorem test_witness_ResetHaltsThePart :
    up.power = .running ∧ ({ up with power := .resetLow } : State).power ≠ .running ∧
    Instr.cycleEnd.isPowerCommand = false ∧ ({ up with power := .hold true } : State).power = .hold true ∧
    ({ up with power := .awaitRise } : State).power = .awaitRise := by decide +kernel

theorem test_witness_PowerOnAndPinResetSetEveryBlock :
    ({ up with power := .hold false } : State).power = .hold false ∧
    ({ up with power := .hold true } : State).power = .hold true ∧
    ({ up with power := .awaitRise } : State).power = .awaitRise ∧
    ({ up with power := .resetLow, mgmt := Management.initial 255 } : State).power = .resetLow := by decide +kernel

/-- A drain with an idle part; one whose reply waits; and one with a busy transmitter. -/
theorem test_witness_DeviceResetTakesEffect :
    let d : Drain := ⟨some (.L, 2), 0⟩
    let idle := up.setDrain (some d)
    let waiting := idle.setEgress .L 2 [mgmtDesc 0 2 32]
    let busy := idle.modPort .A fun u => { u with tx := some (txOf (.desc (descOf .drop none 0))) }
    idle.power = .running ∧ idle.mgmt.drain = some d ∧ idle.egress .L 2 = [] ∧ (∀ u ∈ idle.ports.toList, u.tx = none) ∧
    waiting.egress .L 2 = [mgmtDesc 0 2 32] ∧ (mgmtDesc 0 2 32).origin = .management ∧
    (mgmtDesc 0 2 32).slot = d.slot ∧
    (busy.port .A).tx ≠ none ∧ up.mgmt.drain = none := by decide +kernel

theorem test_witness_EpochStrapsAndTimerChangeOnlyAtTheirEvents :
    exec .cycleEnd up = .next up ∧ exec (.receptionStart .A) State.reset = .next State.reset ∧
    Instr.cycleEnd.isReset = false ∧ (Instr.receptionStart .A).isReset = false ∧ up.mgmt.epoch ≠ 0 :=
  ⟨rfl, rfl, rfl, rfl, by decide +kernel⟩

theorem test_witness_ReceptionStartTakesTheHeadSlot :
    up.power = .running ∧ (up.port .L).state = .up ∧ (up.port .L).rx = none ∧ up.mgmt.drain = none ∧
    (State.reset.port .L).state ≠ .up ∧ (up.setDrain (some ⟨none, 0⟩)).mgmt.drain ≠ none := by decide +kernel

/-- A reception with its kind still to come; one without a slot and too short to have a kind; one without a slot that is
no SYNC; and one whose end brings its kind. -/
theorem test_witness_KindFieldSettlesTheSlot :
    let open0 := receiving .A (rxOf (some 0) none) up
    let short := receiving .A (rxOf none none) up
    let lost := receiving .A (rxOf none (some 0x01)) up
    (open0.port .A).rx = some (rxOf (some 0) none) ∧ (rxOf (some 0) none).kind = none ∧
    (short.port .A).rx = some (rxOf none none) ∧ [(1 : Byte), 2].length ≤ 2 ∧
    (lost.port .A).rx = some (rxOf none (some 0x01)) ∧ (rxOf none (some 0x01)).slot = none ∧
    ([1, 2, 0x01] : List Byte)[2]? = some 0x01 ∧ open0.power = .running := by decide +kernel

/-- One frame for each failed check: 31 and 513 bytes, a wrong check, a length field of 33 in 32 bytes, kinds 0 and 6,
and a SYNC of 33 bytes. -/
theorem test_witness_FailedReceptionIsDiscarded :
    let s := receiving .A (rxOf (some 0) (some 0x01)) up
    let sound := fun f : List Byte => (crc32 (f.take (f.length - 4))).toNat = numAt f (f.length - 4) 4
    let wrongLength := recheck (headerBytes 1 2 1 0 0 33 ++ List.replicate 16 0)
    s.power = .running ∧ (s.port .A).rx = some (rxOf (some 0) (some 0x01)) ∧ (rxOf (some 0) (some 0x01)).slot ≠ none ∧
    (List.replicate 31 (0 : Byte)).length < 32 ∧ 512 < (List.replicate 513 (0 : Byte)).length ∧
    ¬ sound (List.replicate 32 1) ∧ (List.replicate 32 (1 : Byte)).length = 32 ∧
    sound wrongLength ∧ wrongLength.length = 32 ∧ numAt wrongLength 6 2 ≠ wrongLength.length ∧
    sound (frameOf 1 2 0 0 0 32) ∧ (frameOf 1 2 0 0 0 32).length = 32 ∧ ¬ 1 ≤ (0 : Byte).toNat ∧
    sound (frameOf 1 2 6 0 0 32) ∧ ¬ (6 : Byte).toNat ≤ 5 ∧
    sound (frameOf 1 2 2 0 0 33) ∧ (frameOf 1 2 2 0 0 33).length = 33 ∧ numAt (frameOf 1 2 2 0 0 33) 6 2 ≠ 32 := by
  decide +kernel

/-- A SYNC on B, which is not the timing port; and on A one that did not begin there and one of index 8. -/
theorem test_witness_SyncArrivalIsCopiedOrForeign :
    let rx := { rxOf none (some 0x02) with atTiming := false }
    let foreign := receiving .B rx up
    let own := receiving .A rx up
    foreign.power = .running ∧ (foreign.port .B).rx = some rx ∧ rx.kind = some 0x02 ∧ rx.slot = none ∧
    ingressCheck (syncOf 8 0) 0x02 = .arrival ∧ foreign.timingPort ≠ .B ∧ own.timingPort = .A ∧
    (own.port .A).rx = some rx ∧ rx.atTiming = false ∧
    own.base.cyclesPerRound.toNat ≤ (parseSync (syncOf 8 0)).index.toNat ∧ (own.port .L).state = .up ∧
    (State.reset.port .L).state ≠ .up := by decide +kernel

/-- Errors of 250, the step threshold, in ACQUIRING and of -16 in HOLDOVER; and, under HOLD_SCHEDULED, an eighth error
inside the lock window, which takes the part from held to running. -/
theorem test_witness_ServoCorrects :
    let f := syncOf 3 16
    let meets := fun (s : State) (rx : Reception) (err : Int) =>
      s.power = .running ∧ (s.port .A).rx = some rx ∧ rx.kind = some 0x02 ∧ rx.slot = none ∧
      ingressCheck f 0x02 = .arrival ∧ s.timingPort = .A ∧ rx.atTiming = true ∧
      (parseSync f).index.toNat < s.base.cyclesPerRound.toNat ∧
      0 = ((parseSync f).correction.toNat + s.base.linkDelay.toNat) / s.base.cycleLength.toNat ∧
      16 = ((parseSync f).correction.toNat + s.base.linkDelay.toNat) % s.base.cycleLength.toNat ∧
      ErrorRow s.base rx.stamp 16 err (40, 3) ∧
      ((40 : W16), 3) = ((parseSync f).round +
          BitVec.ofNat 16 (((parseSync f).index.toNat + 0) / s.base.cyclesPerRound.toNat),
        ((parseSync f).index.toNat + 0) % s.base.cyclesPerRound.toNat) ∧
      err.natAbs ≤ s.base.stepThreshold.toNat ∧ s.timer.sync ≠ .free
    let held := fun s : State => { s with gen := { s.gen with active := { s.gen.active with
      base := { s.gen.active.base with unlocked := .holdScheduled } } } }
    meets (syncing .acquiring 7 266) ⟨none, some 0x02, ⟨40, 3, 266⟩, 0, true⟩ 250 ∧
    meets (syncing .holdover 0 0) ⟨none, some 0x02, ⟨40, 3, 0⟩, 0, true⟩ (-16) ∧
    meets (held (syncing .acquiring 7 32)) ⟨none, some 0x02, ⟨40, 3, 32⟩, 0, true⟩ 16 := by
  simp only [ErrorRow]
  refine ⟨?_, ?_, ?_⟩ <;> decide +kernel

/-- The two errors of half a cycle that R25 leaves as they are, and those a quantum beyond. -/
theorem test_witness_of_the_error_rows :
    ErrorRow base0 ⟨40, 7, 62500⟩ 0 62500 (40, 7) ∧ ErrorRow base0 ⟨40, 7, 62501⟩ 0 (-62499) (41, 0) ∧
    ErrorRow base0 ⟨40, 0, 0⟩ 62500 (-62500) (40, 0) ∧ ErrorRow base0 ⟨40, 0, 0⟩ 62501 62499 (39, 7) := by
  simp only [ErrorRow]
  decide +kernel

/-- A SYNC in FREE; an error of 251, beyond the step threshold; a count mismatch; and, from round 40, commits AT_ROUND of
rounds 40, reached, and 41, ahead. -/
theorem test_witness_ServoSteps :
    let f := syncOf 3 0
    let meets := fun (s : State) (rx : Reception) (err : Int) =>
      s.power = .running ∧ (s.port .A).rx = some rx ∧ rx.kind = some 0x02 ∧ rx.slot = none ∧
      ingressCheck f 0x02 = .arrival ∧ s.timingPort = .A ∧ rx.atTiming = true ∧
      (parseSync f).index.toNat < s.base.cyclesPerRound.toNat ∧
      0 = ((parseSync f).correction.toNat + s.base.linkDelay.toNat) / s.base.cycleLength.toNat ∧
      0 = ((parseSync f).correction.toNat + s.base.linkDelay.toNat) % s.base.cycleLength.toNat ∧
      ErrorRow s.base rx.stamp 0 err (rx.stamp.round, rx.stamp.index) ∧ 320 = 0 + (s.refCount - rx.start)
    let pending := fun r => (syncing .free 0 0).setCommit (some (commitOf (.atRound r) none))
    let reached := fun r round : W16 => let ahead := (r.toNat + 65536 - round.toNat) % 65536
      ahead = 0 ∨ 32768 ≤ ahead
    meets (syncing .free 0 0) ⟨none, some 0x02, ⟨40, 3, 0⟩, 0, true⟩ 0 ∧ (syncing .free 0 0).timer.sync = .free ∧
    meets (syncing .locked 8 251) ⟨none, some 0x02, ⟨40, 3, 251⟩, 0, true⟩ 251 ∧
    base0.stepThreshold.toNat < (251 : Int).natAbs ∧
    meets (receiving .A ⟨none, some 0x02, ⟨40, 5, 0⟩, 0, true⟩ (syncing .locked 8 0))
      ⟨none, some 0x02, ⟨40, 5, 0⟩, 0, true⟩ 0 ∧
    ((40 : W16), 5) ≠ ((40 : W16) + BitVec.ofNat 16 ((3 + 0) / 8), (3 + 0) % 8) ∧
    meets (pending 40) ⟨none, some 0x02, ⟨40, 3, 0⟩, 0, true⟩ 0 ∧ reached 40 40 ∧ ¬ reached 41 40 ∧
    (pending 41).gen.commit = some (commitOf (.atRound 41) none) ∧ (syncing .free 0 0).gen.commit = none := by
  simp only [ErrorRow]
  refine ⟨?_, ?_, ?_, ?_, ?_, ?_, ?_, ?_⟩ <;> decide +kernel

theorem test_witness_ArrivalReachesTheClassifier :
    let s := receiving .A (rxOf (some 383) (some 0x01)) up
    s.power = .running ∧ (s.port .A).rx = some (rxOf (some 383) (some 0x01)) ∧ (0x01 : Byte) ≠ 0x02 ∧ 383 < 384 ∧
    ingressCheck (frameOf 17 254 0x01 0 0 32) 0x01 = .arrival := by decide +kernel

/-- Destinations that are the part's own, by a node address of 253 and by address 0 on L; and the arrivals of the
first-match table that select an entry, and none. -/
theorem test_witness_ClassificationInterceptsThenMatches :
    let s := { up with gen := { up.gen with active := { up.gen.active with streams := firstMatch } } }
    let a := arrivalOf 64 0 250
    (upWith { base0 with node := 253 }).base.node.toNat ≤ 253 ∧ up.base.node = 0 ∧
    ({ a with dst := 0, port := .L } : Arrival).port = .L ∧ ¬ (a.dst = 0 ∧ a.port = .L) ∧
    s.gen.active.streams.length = 256 ∧ (s.gen.active.streams[9]?).any (fun e => e.accepts a) = true ∧
    (∀ e ∈ s.gen.active.streams.take 9, e.accepts a = false) ∧
    (∀ e ∈ up.gen.active.streams, e.accepts a = false) := by decide +kernel

/-- A request that waits in the queue; one that is answered; a queue of 8; and a queue of 7. -/
theorem test_witness_IntakeDecides :
    let q := requestOf 0x02 0 32
    let s := up.writeSlot 5 (headerBytes 0 9 0x03 0 0 32 ++ [0x12, 0x34, 0x02, 0])
    let req := s.requestIn .L 5 32
    let others := List.replicate 7 { q with tag := 1 }
    req.requester = 9 ∧ req.tag = 0x1234 ∧ (5 : Nat) < 384 ∧
    ((s.setRequests [q]).mgmt.requests.any fun r => decide (r.requester = req.requester ∧ r.tag = req.tag)) = true ∧
    (s.recordAnswer 9 0x1234 0x02 .done).answerOf req.requester req.tag = some ⟨9, 0x1234, 0x02, .done⟩ ∧
    s.mgmt.answered = [] ∧ s.mgmt.engine = .idle ∧ s.gen.commit = none ∧
    s.mgmt.portControl.toList = [none, none, none] ∧
    (∀ r ∈ others, ¬ (r.requester = req.requester ∧ r.tag = req.tag)) ∧ others.length < 8 ∧
    8 ≤ ({ q with tag := 2 } :: others).length := by decide +kernel

/-- Distances 16 and 239, which part duplicates from gaps, and budgets that just hold and just fail. -/
theorem test_witness_MonitorAndBudgetJudge :
    let st := { StreamState.initial with budgetUsed := 800, expectation := some 20 }
    let s := { up with streams := up.streams.set 5 st }
    s.streams[(5 : Byte).toNat]? = some st ∧ st.expectation = some 20 ∧ entryB.monitor = .off ∧
    ({ entryB with monitor := .discard } : StreamEntry).monitor ≠ .off ∧
    1 ≤ ((20 : Byte) - 4).toNat ∧ ((20 : Byte) - 4).toNat ≤ 16 ∧
    1 ≤ ((3 : Byte) - 20).toNat ∧ ((3 : Byte) - 20).toNat ≤ 239 ∧
    entryB.budget = 0 ∧ (1000 : W16) ≠ 0 ∧ st.budgetUsed + 200 ≤ (1000 : W16).toNat ∧
    (1000 : W16).toNat < st.budgetUsed + 201 := by decide +kernel

/-- Lengths at and above the max frame length, each action, a duplicate, and 31 and 32 records in retention. -/
theorem test_witness_MatchedArrivalFollowsItsAction :
    let e := { entryB with maxLength := 300, monitor := .discard }
    let s := { up with streams := up.streams.set 5 { StreamState.initial with expectation := some 20 } }
    let full := s.setRecords (List.replicate 32 (recordOf 1 .late))
    e.maxLength.toNat < (arrivalOf 301 20 0).length ∧ (arrivalOf 300 20 0).length ≤ e.maxLength.toNat ∧
    (s.monitorStep 5 e (arrivalOf 300 19 0)).2 = false ∧ (s.monitorStep 5 e (arrivalOf 300 20 0)).2 = true ∧
    ({ e with action := .drop } : StreamEntry).action = .drop ∧ e.action = .forward ∧
    (s.budgetStep 5 e (arrivalOf 300 20 0)).2 = some 1 ∧
    (s.budgetStep 5 { e with budget := 64 } (arrivalOf 300 20 0)).2 = none ∧
    ({ e with action := .retain } : StreamEntry).action = .retain ∧
    (List.replicate 31 (recordOf 1 .late)).length < 32 ∧ 32 ≤ full.retention.records.length := by decide +kernel

/-- A route to the ingress port; to an UP port below its limit, at its limit; and to a port that is not UP, by late
policy and by room in retention. -/
theorem test_witness_OneCopyIsQueuedRetainedOrDropped :
    let a := arrivalOf 64 0 0
    let atLimit := up.setEgress .B 1 (List.replicate 32 (descOf .drop none 0))
    let below := up.setEgress .B 1 (List.replicate 31 (descOf .drop none 0))
    up.routePorts (.port .A) a = [a.port] ∧ up.routePorts entryB.route a = [.B] ∧ Port.B ≠ a.port ∧
    (up.port .B).state = .up ∧ ((up.base.limits.get .B).get 1).toNat ≤ (atLimit.egress .B 1).length ∧
    ¬ ((up.base.limits.get .B).get 1).toNat ≤ (below.egress .B 1).length ∧ ¬ 128 ≤ (below.egress .B 1).length ∧
    below.descsFree ≠ 0 ∧ State.reset.routePorts entryB.route a = [.B] ∧ (State.reset.port .B).state ≠ .up ∧
    entryB.late ≠ .retain ∧ ({ entryB with late := .retain } : StreamEntry).late = .retain ∧
    State.reset.retention.records.length < 32 ∧
    32 ≤ (State.reset.setRecords (List.replicate 32 (recordOf 1 .late))).retention.records.length := by decide +kernel

theorem test_witness_BothOthersMakesTwoCopiesInPortOrder :
    let a := arrivalOf 64 0 0
    up.routePorts .bothOthers a = [.B, .L] ∧ up.routePorts .default { a with dst := 255 } = [.B, .L] := by decide +kernel

/-- A listed station, node 255, another node; unmatched actions DROP and FORWARD; and each outcome at the queue. -/
theorem test_witness_UnmatchedArrivalTakesTheDefaultRoute :
    let a := arrivalOf 64 0 0
    let s := upWith { base0 with stationCount := 4, stations := ⟨1, 2, 3, 17⟩ }
    s.base.stations.toList[3]? = some a.dst ∧ 3 < s.base.stationCount.toNat ∧ s.defaultRoute a = [.L] ∧
    up.base.stationCount.toNat = 0 ∧ a.dst ≠ 255 ∧ up.defaultRoute a = [.B] ∧ up.base.unmatched = .forward ∧
    (upWith { base0 with unmatched := .drop }).base.unmatched = .drop ∧ s.defaultRoute { a with port := .L } = [.L] ∧
    (up.port .B).state = .up ∧ (State.reset.port .B).state ≠ .up ∧ up.egress .B 3 = [] ∧ up.descsFree = 512 ∧
    up.defaultRoute { a with dst := 255 } = [.B, .L] ∧ a.port ∉ [Port.B, .L] := by decide +kernel

/-- A due check and one a quantum early, on a port of each state, at the counts that decide. -/
theorem test_witness_LinkCheckCountsAndBringsUp :
    let s := { up with refCount := 12500 }
    let r := { State.reset with refCount := 12500 }
    (s.port .A).lastCheck + 12500 ≤ s.refCount ∧ 12499 < (up.port .A).lastCheck + 12500 ∧
    (s.port .A).state = .up ∧ (s.port .A).bad ≤ 1 ∧ ((s.modPort .A fun u => { u with bad := 1 }).port .A).bad ≤ 1 ∧
    (r.port .A).state = .qualifying ∧ (r.port .A).qualCount = none ∧ (r.port .A).good ≤ 1 ∧
    2 ≤ ((r.modPort .A fun u => { u with good := 2 }).port .A).good ∧
    ((r.modPort .A fun u => { u with state := .down }).port .A).state = .down ∧
    ((r.modPort .A fun u => { u with state := .disabling }).port .A).state = .disabling ∧
    ((r.modPort .A fun u => { u with state := .disabled }).port .A).state = .disabled := by decide +kernel

/-- The third good check, and the 63rd and 64th checks of a waiting ENABLE. -/
theorem test_witness_WaitingEnableEndsAtUpOrTheSixtyFourthCheck :
    let o : PortControl := ⟨9, 7, .L, false, .enable, some 5⟩
    let s := fun good n : Nat => ({ State.reset with refCount := 12500 }.modPort .A fun u =>
      { u with good := good, qualCount := some n }).setPortControl .A (some o)
    (s 2 63).power = .running ∧ ((s 2 63).port .A).lastCheck + 12500 ≤ (s 2 63).refCount ∧
    ((s 2 63).port .A).state = .qualifying ∧ ((s 2 63).port .A).qualCount = some 63 ∧
    (s 2 63).mgmt.portControl.get .A = some o ∧ 3 ≤ ((s 2 63).port .A).good + 1 ∧
    ((s 1 62).port .A).good + 1 < 3 ∧ ((s 1 62).port .A).qualCount = some 62 ∧ 62 + 1 < 64 ∧
    ((s 1 63).port .A).good + 1 < 3 ∧ ((s 1 63).port .A).qualCount = some 63 ∧ 63 + 1 = 64 := by decide +kernel

theorem test_witness_PortLossDisposesInOrder :
    let s := { up.modPort .L fun u => { u with bad := 2, tx := some (txOf (.desc (descOf .retain none 0))) } with
      refCount := 12500 }
    s.power = .running ∧ (s.port .L).lastCheck + 12500 ≤ s.refCount ∧ (s.port .L).state = .up ∧
    2 ≤ (s.port .L).bad := by decide +kernel

/-- A transmission at its last quantum and one before; of a SYNC, a stream's, an unmatched and a management frame; and
on a DISABLING port. -/
theorem test_witness_TransmissionEndCountsAndReleases :
    let s := fun (x : Sending) (now : Nat) =>
      { up.modPort .B fun u => { u with tx := some (txOf x) } with refCount := now }
    let d := descOf .drop none 0
    let m := mgmtDesc 0 2 32
    let t := (s (.desc d) 760).modPort .B fun u => { u with state := .disabling }
    ((s (.desc d) 759).port .B).tx = some (txOf (.desc d)) ∧
    759 < (txOf (.desc d)).start + (txOf (.desc d)).occupation ∧
    ((s (.desc d) 760).port .B).tx = some (txOf (.desc d)) ∧ ((s (.desc d) 760).port .B).state = .up ∧
    (txOf (.desc d)).start + (txOf (.desc d)).occupation ≤ 760 ∧ d.origin = .stream 7 ∧
    ((s (.desc m) 760).port .B).tx = some (txOf (.desc m)) ∧ m.origin = .management ∧
    (unmatchedDesc (arrivalOf 64 0 0)).origin = .unmatched ∧ (s (.desc d) 760).power = .running ∧
    ((s (.sync (parseSync (syncOf 3 0))) 760).port .B).tx = some (txOf (.sync (parseSync (syncOf 3 0)))) ∧
    (t.port .B).tx = some (txOf (.desc d)) ∧ (t.port .B).state = .disabling ∧ t.mgmt.portControl.get .B = none ∧
    (t.setPortControl .B (some ⟨8, 1, .A, true, .disable, none⟩)).mgmt.portControl.get .B =
      some ⟨8, 1, .A, true, .disable, none⟩ := by decide +kernel

/-- A marked opportunity on an idle UP port: with a filled holder, with an eligible queue whose frame ends at its bound,
and in a drain; and one on a busy port. -/
theorem test_witness_OpportunitiesStartWhatTheArbiterChooses :
    let d := descOf .drop none 0
    let m := mgmtDesc 0 2 64
    let s := (up.setEgress .B 1 [d]).raise .B
    let held := s.modPort .B fun u => { u with holder := some ⟨parseSync (syncOf 3 0), 0⟩ }
    let bounded := s.modGates .B fun g => { g with bound := ⟨none, some 760, none, none⟩ }
    let drain := ((up.setEgress .B 2 [m]).raise .B).setDrain (some ⟨some (.B, 2), 0⟩)
    s.opportunities.get .B = true ∧ (s.port .B).state = .up ∧ (s.port .B).tx = none ∧ s.mgmt.drain = none ∧
    (s.port .B).holder = none ∧ (held.port .B).holder = some ⟨parseSync (syncOf 3 0), 0⟩ ∧
    s.egress .B 1 = d :: [] ∧ (s.gates.get .B).gate.get 1 = true ∧ (s.gates.get .B).bound.get 1 = none ∧
    s.egress .B 0 = [] ∧ (bounded.gates.get .B).bound.get 1 = some 760 ∧
    bounded.positionNow + (d.length + 12) * 10 ≤ 760 ∧ drain.mgmt.drain = some ⟨some (.B, 2), 0⟩ ∧
    drain.egress .B 2 = m :: [] ∧ m.origin = .management ∧ m.slot = 0 ∧ up.opportunities.get .B = false ∧
    ((held.modPort .B fun u => { u with tx := some (txOf (.desc d)) }).port .B).tx ≠ none := by decide +kernel

/-- A cycle end that is due and one a quantum early, before and at the wrap of the cycle index. -/
theorem test_witness_CycleEndAdvancesTheTimer :
    let s := roundEnd .locked none
    s.power = .running ∧ s.timer.effLength ≤ s.timer.position ∧ s.gen.commit = none ∧
    0 = (if s.base.cyclesPerRound.toNat ≤ s.timer.index + 1 then 0 else s.timer.index + 1) ∧
    (0 : Int) = s.timer.residue + s.timer.trim ∧
    ({ s with timer := { s.timer with position := 124999 } } : State).timer.position < s.timer.effLength ∧
    (roundEnd .free (some (commitOf .nextRound none))).gen.commit ≠ none ∧
    (roundEnd .free (some (commitOf (.atRound 42) none))).gen.commit = some (commitOf (.atRound 42) none) ∧
    (42 : W16) ≠ s.timer.round + 1 := by decide +kernel

/-- NEXT_ROUND; AT_ROUND of the new round in HOLDOVER and in ACQUIRING; and AT_ROUND of a later round. -/
theorem test_witness_DueCommitSwapsOrFails :
    let at41 := roundEnd .holdover (some (commitOf (.atRound 41) none))
    let unsynced := roundEnd .acquiring (some (commitOf (.atRound 41) none))
    let mid := fun s : State => s.retimed (s.timer.counted s.base)
    at41.power = .running ∧ at41.timer.effLength ≤ at41.timer.position ∧
    at41.base.cyclesPerRound.toNat ≤ at41.timer.index + 1 ∧ at41.gen.commit = some (commitOf (.atRound 41) none) ∧
    (commitOf .nextRound none).target = .nextRound ∧
    (commitOf (.atRound 41) none).target = .atRound (at41.timer.round + 1) ∧
    (mid at41).timer.sync = .holdover ∧ (mid unsynced).timer.sync = .acquiring ∧
    (42 : W16) ≠ at41.timer.round + 1 := by decide +kernel

theorem test_witness_CycleEndOpensTheNewCyclesWindows :
    (roundEnd .locked none).power = .running ∧
    (roundEnd .locked none).timer.effLength ≤ (roundEnd .locked none).timer.position := by decide +kernel

/-- A port at position 1 with nothing due, one with a window that closes there, and one with a window that opens at the
last position of the cycle. -/
theorem test_witness_WindowEventClosesThenOpens :
    let w : WindowEntry := { WindowEntry.blank with
      valid := true, port := .B, classes := 2, openOffset := 124999, closeOffset := 125000, indexMatch := 0xFF
      modulus := 1 }
    let s := fun pos : Nat => { up with timer := { up.timer with position := pos } }
    let closing := (s 1).modGates .B fun g => { g with windows := [⟨3, 2, true, false, .at 1⟩] }
    let opening := { s 124999 with gen := { up.gen with active := { up.gen.active with windows := [w] } } }
    0 < (s 1).timer.position ∧ (s 124999).timer.position < (s 124999).timer.effLength ∧
    (s 1).windowEventDue .B = false ∧
    (∃ o ∈ (closing.gates.get .B).windows, o.close = .at closing.timer.position) ∧ opening.base.unlocked = .runLocal ∧
    (∃ x ∈ opening.gen.active.windows.zipIdx, x.1.valid = true ∧ x.1.port = .B ∧
      x.1.activeIn opening.timer.round opening.timer.index = true ∧ x.1.openOffset.toNat = opening.timer.position) ∧
    (opening.gates.get .B).windows = [] := by decide +kernel

theorem test_witness_LatenessComparesCycleCounts : (mgmtDesc 0 2 32).maxWait = none ∧
    (descOf .drop (some 0) 9001).stamp = some ⟨⟨40, 3, 2210⟩, 9001⟩ ∧ (descOf .drop (some 0) 9001).isLate 9002 = true ∧
    (descOf .drop (some 0) 9001).isLate 9001 = false := by decide +kernel

theorem test_witness_LatenessCheckTakesTheLateCopies : (255 : Byte).toNat < up.streams.length := by decide +kernel

/-- Part held and part running; rounds at distance 0, 1, 32,767 and 32,768. -/
theorem test_witness_SyncAndStepEventsRenewTheWindows :
    let b := { base0 with unlocked := .holdScheduled }
    let c := commitOf (.atRound 5) none
    let ahead := fun r round : W16 => (r.toNat + 65536 - round.toNat) % 65536
    (upWith b).base.unlocked ≠ .runLocal ∧ (upWith b).timer.sync = .free ∧ up.base.unlocked = .runLocal ∧
    up.gen.commit = none ∧ (up.setCommit (some c)).gen.commit = some c ∧ c.target = .atRound 5 ∧
    (commitOf .nextRound none).target = .nextRound ∧ ahead 5 5 = 0 ∧ ahead 5 4 = 1 ∧ ahead 32767 0 = 32767 ∧
    ahead 32768 0 = 32768 ∧ ahead 4 5 = 65535 := by decide +kernel

theorem test_witness_TakeTests_of_a_condition :
    let s := (up.setConditions [⟨9, 2001, 0x0A, .notSynced, .round 500, 0⟩]).setRequests [requestOf 0x02 0 32]
    let s1 := (s.setRequests []).setEngine (.executing (requestOf 0x02 0 32) true)
    s.Takes s1 (requestOf 0x02 0 32) true ∧ (requestOf 0x02 0 32).slot < 384 ∧
    s1.mgmt.conditions.find? (fun c => c.requester == (requestOf 0x02 0 32).requester) =
      some ⟨9, 2001, 0x0A, .notSynced, .round 500, 0⟩ :=
  ⟨⟨rfl, .inr ⟨rfl, [], rfl, by decide +kernel, rfl⟩⟩, by decide, by decide +kernel⟩

/-- Kinds 0 and 19; IDENTIFY in a frame of 33 bytes; and an engine that is STOPPED, or IDLE with nothing to take. -/
theorem test_witness_TakeTests_of_a_wrong_form :
    let s := fun q : Request => up.setEngine (.executing q false)
    (s (requestOf 0 0 32)).Takes (s (requestOf 0 0 32)) (requestOf 0 0 32) false ∧ (requestOf 0 0 32).kind.toNat = 0 ∧
    (s (requestOf 19 0 32)).Takes (s (requestOf 19 0 32)) (requestOf 19 0 32) false ∧
    18 < (requestOf 19 0 32).kind.toNat ∧
    (s (requestOf 18 0 33)).Takes (s (requestOf 18 0 33)) (requestOf 18 0 33) false ∧
    (requestOf 18 0 33).length ≠ requiredLength 18 0 ∧
    (s (requestOf 1 0 33)).Takes (s (requestOf 1 0 33)) (requestOf 1 0 33) false ∧
    (requestOf 1 0 33).length ≠ requiredLength 1 0 ∧
    (up.setEngine .stopped).mgmt.engine = .stopped ∧ up.mgmt.engine = .idle ∧ up.mgmt.requests = [] :=
  ⟨⟨rfl, .inl ⟨rfl, rfl⟩⟩, by decide, ⟨rfl, .inl ⟨rfl, rfl⟩⟩, by decide, ⟨rfl, .inl ⟨rfl, rfl⟩⟩, by decide,
    ⟨rfl, .inl ⟨rfl, rfl⟩⟩, by decide, rfl, rfl, rfl⟩

theorem test_witness_OutstandingOperationEnds :
    let c : Condition := ⟨9, 2001, 0x0A, .notSynced, .round 500, 0⟩
    383 < 384 ∧ (∀ x ∈ up.mgmt.conditions, x.requester ≠ 9) ∧
    (up.setConditions [{ c with requester := 8 }, c]).mgmt.conditions = [{ c with requester := 8 }] ++ c :: [] ∧
    c.requester = 9 ∧ ∀ x ∈ [{ c with requester := 8 }] ++ ([] : List Condition), x.requester ≠ 9 := by decide +kernel

theorem test_witness_IdentifyAndReadStatusReport :
    (asking 0x01 0 [] up).Runs (asking 0x01 0 [] up) (askedOf 0x01 0 []) ∧
    (asking 0x02 0 [] up).Runs (asking 0x02 0 [] up) (askedOf 0x02 0 []) ∧
    up.gen.commit = none ∧ (up.setCommit (some (commitOf .nextRound none))).gen.commit ≠ none ∧
    up.mgmt.portControl.get .L = none :=
  ⟨asking_runs _ _ _ _ rfl (by decide +kernel), asking_runs _ _ _ _ rfl (by decide +kernel), by decide +kernel⟩

/-- READ STREAM COUNTERS of 0, of 13, past index 255 and with clear flag 2, and of the last twelve indices. -/
theorem test_witness_CountersAreReadAndCleared_of_streams :
    let ps : List (List Byte) := [[0, 0, 0], [0, 13, 0], [245, 12, 0], [0, 1, 2], [244, 12, 1]]
    (∀ p ∈ ps, (asking 0x03 0 p up).formOk (askedOf 0x03 0 p) = true) ∧
    (asking 0x03 0 [244, 12, 1] up).Runs (asking 0x03 0 [244, 12, 1] up) (askedOf 0x03 0 [244, 12, 1]) ∧
    (asking 0x03 0 [244, 12, 1] up).param (askedOf 0x03 0 [244, 12, 1]) 0 = 244 ∧
    (asking 0x03 0 [244, 12, 1] up).param (askedOf 0x03 0 [244, 12, 1]) 1 = 12 ∧
    (244 : Byte).toNat + (12 : Byte).toNat ≤ 256 ∧ 256 < (245 : Byte).toNat + (12 : Byte).toNat ∧
    (up.streams[244 + 11]?).isSome = true :=
  ⟨by decide +kernel, asking_runs _ _ _ _ rfl (by decide +kernel), by decide +kernel⟩

theorem test_witness_CountersAreReadAndCleared_of_ports :
    let runs := fun (k p : Byte) => (asking k 0 [p] up).Runs (asking k 0 [p] up) (askedOf k 0 [p]) ∧
      (asking k 0 [p] up).param (askedOf k 0 [p]) 0 = p
    runs 0x04 0 ∧ runs 0x04 1 ∧ runs 0x04 2 ∧ runs 0x10 0 ∧ runs 0x10 1 ∧ runs 0x10 2 ∧ runs 0x10 3 := by
  refine ⟨?_, ?_, ?_, ?_, ?_, ?_, ?_⟩ <;>
    exact ⟨asking_runs _ _ _ _ rfl (by decide +kernel), by decide +kernel⟩

/-- READ ENTRIES of bank 2 and of table 3; of 16 stream entries; and of the most entries at the end of each table. -/
theorem test_witness_ReadEntriesReturnsImages :
    let runs := fun p : List Byte => (asking 0x05 0 p up).Runs (asking 0x05 0 p up) (askedOf 0x05 0 p)
    let at' := fun (p : List Byte) (i : Nat) => ((asking 0x05 0 p up).param (askedOf 0x05 0 p) i).toNat
    runs [2, 0, 0, 1] ∧ runs [0, 3, 0, 1] ∧ runs [0, 0, 0, 16] ∧ runs [0, 0, 241, 15] ∧ runs [1, 1, 34, 30] ∧
    runs [1, 2, 0, 1] ∧ 1 < at' [2, 0, 0, 1] 0 ∧ at' [0, 3, 0, 1] 1 = 3 ∧ at' [0, 0, 0, 16] 3 = 16 ∧
    at' [0, 0, 241, 15] 2 + at' [0, 0, 241, 15] 3 = 256 ∧ at' [1, 1, 34, 30] 2 + at' [1, 1, 34, 30] 3 = 64 ∧
    at' [1, 2, 0, 1] 3 = 1 := by
  refine ⟨?_, ?_, ?_, ?_, ?_, ?_, by decide +kernel⟩ <;> exact asking_runs _ _ _ _ rfl (by decide +kernel)

/-- The staging kinds with counts of 0, past the end of their tables, and up to it, with sound and unsound images. -/
theorem test_witness_StagingWritesTheShadowWhole :
    let bad := (streamImage entryB).set 0x15 2
    let badWindow := (windowImage WindowEntry.blank).set 0x03 4
    let runs := fun (k : Byte) (p : List Byte) => (asking k 0 p up).Runs (asking k 0 p up) (askedOf k 0 p)
    let pending := up.setCommit (some (commitOf .nextRound none))
    runs 0x06 [0, 0] ∧ runs 0x06 ([255, 2] ++ streamImage entryB ++ streamImage entryB) ∧
    runs 0x06 ([255, 1] ++ streamImage entryB) ∧ runs 0x06 ([255, 1] ++ bad) ∧ runs 0x07 [0, 0] ∧
    runs 0x07 ([64, 1] ++ badWindow) ∧ runs 0x07 ([63, 1] ++ badWindow) ∧
    runs 0x07 ([63, 1] ++ windowImage WindowEntry.blank) ∧ runs 0x08 (baseImage base0) ∧
    runs 0x08 ((baseImage base0).set 4 2) ∧ runs 0x09 [] ∧
    streamEncodingOk (streamImage entryB) = true ∧ streamEncodingOk bad = false ∧
    windowEncodingOk badWindow = false ∧ baseEncodingOk (baseImage base0) = true ∧
    baseEncodingOk ((baseImage base0).set 4 2) = false ∧ up.gen.commit = none ∧ pending.gen.commit.isSome = true ∧
    pending.power = .running := by
  refine ⟨?_, ?_, ?_, ?_, ?_, ?_, ?_, ?_, ?_, ?_, ?_, by decide +kernel⟩ <;>
    exact asking_runs _ _ _ _ rfl (by decide +kernel)

/-- COMMIT of target kinds 0, 1 and 2, at distances 1 and 32,767, 0 and 32,768, with a sound and an unsound shadow, with
and without early acknowledgement and with its four places taken; and CANCEL COMMIT. -/
theorem test_witness_CommitIsDecidedInOrder :
    let runs := fun (k f : Byte) (p : List Byte) => (asking k f p up).Runs (asking k f p up) (askedOf k f p)
    let bad := { up.gen.shadow with base := { base0 with highMark := 33 } }
    let four := up.setConditions (List.replicate 4 ⟨8, 2001, 0x0A, .notSynced, .round 500, 0⟩)
    runs 0x0A 0 [2, 0, 0] ∧ runs 0x0A 0 [0, 0, 0] ∧ runs 0x0A 1 [1, 0, 1] ∧ runs 0x0A 0 [1, 0x7F, 0xFF] ∧
    runs 0x0A 0 [1, 0, 0] ∧ runs 0x0A 0 [1, 0x80, 0] ∧ runs 0x0B 0 [] ∧
    numAt ((asking 0x0A 0 [1, 0x7F, 0xFF] up).slotBytes 0 32) 0x15 2 = 32767 ∧ up.timer.round = 0 ∧
    (asking 0x0A 0 [1, 0x7F, 0xFF] up).param (askedOf 0x0A 0 [1, 0x7F, 0xFF]) 0 = 1 ∧
    (askedOf 0x0A 1 []).flags.getLsbD 0 = true ∧ up.mgmt.conditions.length + up.earlyOps < 4 ∧
    ¬ four.mgmt.conditions.length + four.earlyOps < 4 ∧ up.gen.shadow.validate = none ∧
    bad.validate = some ⟨0, 12, 0⟩ ∧ up.gen.commit = none ∧
    (up.setCommit (some (commitOf .nextRound none))).gen.commit = some (commitOf .nextRound none) := by
  refine ⟨?_, ?_, ?_, ?_, ?_, ?_, ?_, by decide +kernel⟩ <;> exact asking_runs _ _ _ _ rfl (by decide +kernel)

/-- PORT CONTROL with a port code of 3 and with an operation of 2, and on a port in each state it acts on. -/
theorem test_witness_PortControlActsByThePortsState :
    let runs := fun p : List Byte => (asking 0x0C 0 p up).Runs (asking 0x0C 0 p up) (askedOf 0x0C 0 p)
    let inState := fun st : PortState => up.modPort .L fun u => { u with state := st }
    runs [3, 0] ∧ runs [0, 2] ∧ runs [2, 0] ∧ runs [2, 1] ∧
    (asking 0x0C 0 [2, 1] up).param (askedOf 0x0C 0 [2, 1]) 0 = portCode .L ∧
    (asking 0x0C 0 [2, 1] up).param (askedOf 0x0C 0 [2, 1]) 1 = 1 ∧ up.mgmt.portControl.get .L = none ∧
    (up.setPortControl .L (some ⟨8, 1, .A, true, .enable, none⟩)).mgmt.portControl.get .L ≠ none ∧
    (up.port .L).state = .up ∧ (up.port .L).tx = none ∧
    ((up.modPort .L fun u => { u with tx := some (txOf (.desc (descOf .drop none 0))) }).port .L).tx ≠ none ∧
    ((inState .disabled).port .L).state = .disabled ∧ ((inState .qualifying).port .L).state = .qualifying ∧
    ((inState .down).port .L).state = .down := by
  refine ⟨?_, ?_, ?_, ?_, by decide +kernel⟩ <;> exact asking_runs _ _ _ _ rfl (by decide +kernel)

theorem test_witness_RetrieveReturnsTheHeadRecord :
    let one := up.setRecords [recordOf 70 .late]
    (asking 0x0D 0 [] up).Runs (asking 0x0D 0 [] up) (askedOf 0x0D 0 []) ∧ up.retention.records = [] ∧
    (asking 0x0D 0 [] one).Runs (asking 0x0D 0 [] one) (askedOf 0x0D 0 []) ∧
    one.retention.records = recordOf 70 .late :: [] :=
  ⟨asking_runs _ _ _ _ rfl (by decide +kernel), rfl, asking_runs _ _ _ _ rfl (by decide +kernel), rfl⟩

/-- A requeue of 0, 1, 32 and 33 records; a record that moves, one CAPTURED, and one for a port not UP; a queue one below
its limit of 32, one at it, and a pool with one descriptor left. -/
theorem test_witness_RequeueMovesRecordsInOrder :
    let s := up.setRecords [recordOf 70 .late, recordOf 71 .late]
    let runs := fun p : List Byte => (asking 0x0E 0 p s).Runs (asking 0x0E 0 p s) (askedOf 0x0E 0 p)
    let filled := fun n : Nat => s.setEgress .B 1 (List.replicate n (descOf .drop none 0))
    let pool := fun n : Nat => s.setEgress .L 3 (List.replicate n (mgmtDesc 0 3 32))
    let moves := fun s : State => let r := State.requeue 2 0 s; (r.2.1, stopCauseCode r.2.2)
    runs [0] ∧ runs [33] ∧ runs [1] ∧ runs [32] ∧ moves s = (2, 0) ∧ moves (filled 31) = (1, 4) ∧
    moves (filled 32) = (0, 4) ∧ moves (pool 511) = (1, 5) ∧ (s.base.limits.get .B).get 1 = 32 ∧
    moves (s.setRecords [recordOf 70 .captured]) = (0, 2) ∧ moves (s.setRecords []) = (0, 1) ∧
    moves (s.modPort .B fun u => { u with state := .down }) = (0, 3) ∧ (recordOf 70 .late).egress = some .B := by
  refine ⟨?_, ?_, ?_, ?_, by decide +kernel⟩ <;> exact asking_runs _ _ _ _ rfl (by decide +kernel)

theorem test_witness_FlushQueueResetAndDeviceReset :
    let s := up.setRecords [recordOf 70 .late]
    (asking 0x0F 0 [] s).Runs (asking 0x0F 0 [] s) (askedOf 0x0F 0 []) ∧
    (asking 0x11 0 [] s).Runs (asking 0x11 0 [] s) (askedOf 0x11 0 []) ∧
    (asking 0x12 0 [] s).Runs (asking 0x12 0 [] s) (askedOf 0x12 0 []) := by
  refine ⟨?_, ?_, ?_⟩ <;> exact asking_runs _ _ _ _ rfl (by decide +kernel)

/-- Marks at 254 and 255 events, a notice that is wanted with and without room, and one that is not. -/
theorem test_witness_NoticesAreMarkedAndTried :
    let s := upWith { base0 with managerPresent := true, manager := 254, noticeKinds := 15, noticePort := 2 }
    let marked := fun n : Nat => s.setMark .generation ⟨true, n⟩
    portCode .L = s.base.noticePort ∧ s.base.managerPresent = true ∧ s.base.noticeKinds.getLsbD 2 = true ∧
    up.base.managerPresent = false ∧ (s.mgmt.notices.get NoticeKind.generation.place).pending = false ∧
    ((marked 254).mgmt.notices.get NoticeKind.generation.place) = ⟨true, 254⟩ ∧
    ((marked 255).mgmt.notices.get NoticeKind.generation.place) = ⟨true, 255⟩ ∧
    (s.port .L).state = .up ∧ (s.egress .L s.mgmtClass).length < 128 ∧ 1 ≤ s.descsFree ∧
    s.store.free = 0 :: (List.range 384).tail ∧
    ({ s with store := { s.store with free := [] } } : State).store.free = [] ∧
    ((s.modPort .L fun u => { u with state := .down }).port .L).state ≠ .up := by decide +kernel

/-- A part at work: a reception on A in slot 0, slot 1 shared by a queued copy and one in flight on B, a record on slot
2, a request in slot 3, an early commit and a condition; its next command ends the transmission on B. -/
def busy : State := { up with
  refCount := 760
  ports := ⟨{ up.ports.A with rx := some (rxOf (some 0) (some 0x01)) },
    { up.ports.B with tx := some (txOf (.desc { descOf .drop none 0 with slot := 1 })) }, up.ports.L⟩
  queues := ⟨Quad.all [], Quad.all [], ⟨[], [{ descOf .drop none 0 with slot := 1 }], [], []⟩⟩
  store := { mem := writeBytes [] 0 [1, 0, 3], count := [1, 2, 1, 1] ++ List.replicate 380 0
             free := (List.range 384).drop 4 }
  retention := ⟨[recordOf 2 .late], 0⟩
  gen := { up.gen with commit := some (commitOf .nextRound none) }
  mgmt := { up.mgmt with
    requests := [{ requestOf 0x02 0 32 with slot := 3 }]
    conditions := [⟨8, 2001, 0x0A, .notSynced, .round 500, 0⟩] }
  pending := [.transmissionEnd .B] }

/-- The part after the next step of `busy`. -/
def busyNext : State := result (.transmissionEnd .B) { busy with pending := [] }

theorem test_witness_of_the_invariants_step : step busy = .next busyNext := rfl

theorem test_witness_MemoryFormAndOpportunitiesAreKept :
    memWf busy.store.mem = true ∧ busy.store.mem ≠ [] ∧ busy.opportunities = ⟨false, false, false⟩ := by decide +kernel

theorem test_witness_BoundsAndRangesAreKept :
    busy.WithinBounds ∧ busy.BanksValid ∧ busy.TimerInRange ∧ busy.CountInRange := by
  refine ⟨⟨fun p c => ?_, by decide +kernel⟩, by unfold State.BanksValid; decide +kernel,
    by unfold State.TimerInRange; decide +kernel, by decide +kernel, by decide +kernel, by decide +kernel,
    by decide +kernel, fun x hx => by cases hx⟩
  cases p <;> fin_cases c <;> decide +kernel

theorem test_witness_SlotLawIsKept : busy.SlotLaw := by
  have hh : busy.holders = [0, 1, 1, 2, 3] := by decide +kernel
  refine ⟨by decide +kernel, List.nodup_range.sublist (List.drop_sublist _ _), by decide +kernel, by decide +kernel,
    fun n hn => ?_, fun p rx n hr hn => ?_, by decide +kernel⟩
  · have hf : n ∈ busy.store.free ↔ 4 ≤ n := by
      show n ∈ (List.range 384).drop 4 ↔ 4 ≤ n
      rw [show (List.range 384).drop 4 = List.range' 4 380 by decide +kernel, List.mem_range'_1]
      omega
    rw [hf, hh]
    have hc : busy.slotCount n = ([1, 2, 1, 1] ++ List.replicate 380 0).getD n 0 := rfl
    rcases Nat.lt_or_ge n 4 with h | h
    · rw [hc]; interval_cases n <;> decide +kernel
    · have hz : ∀ m k : Nat, (List.replicate m 0).getD k 0 = 0 := by
        intro m k
        rw [List.getD_eq_getElem?_getD, List.getElem?_replicate]
        split <;> rfl
      have hn' : [0, 1, 1, 2, 3].count n = 0 := List.count_eq_zero.mpr (by simp; omega)
      rw [hc, List.getD_append_right _ _ _ _ h, hz, hn']
      omega
  · cases p
    · cases hr; cases hn; decide +kernel
    · cases hr
    · cases hr

theorem test_witness_BanksStayValid :
    busy.BanksValid ∧ busy.gen.commit.isSome = true := ⟨by unfold State.BanksValid; decide +kernel, rfl⟩

theorem test_witness_GatesStayCurrent : busy.GatesCurrent ∧ busy.QueuedByClass ∧ busy.egress .L 1 ≠ [] := by
  refine ⟨fun p c => ?_, fun p c => ?_, by decide +kernel⟩ <;> cases p <;> fin_cases c <;> decide +kernel

theorem test_witness_EarlyLawIsKept : busy.EarlyLaw := by
  refine ⟨by decide +kernel, by decide +kernel, ?_, ?_⟩
  · intro c h; cases h; decide
  · intro p o h; cases p <;> cases h

/-- A transmission that starts (the first SYNC of 11.2 on B), and one in flight at its end, at a loss of its port and at
RESET_N. -/
theorem test_witness_of_the_transmission_laws :
    let s := receiving .A ⟨none, some 0x02, ⟨0, 0, 80000⟩, 80000, true⟩ { up with refCount := 80320 }
    ((result (.receptionEnd .A (syncOf 3 0)) s).port .B).tx ≠ none ∧ (s.port .B).tx = none ∧
    (busy.port .B).tx = some (txOf (.desc { descOf .drop none 0 with slot := 1 })) ∧
    (busyNext.port .B).tx = none ∧ ((result .resetNAssertion busy).port .B).tx = none ∧
    (result .identify busy).port .B = busy.port .B := by decide +kernel

/-- A copy of class 1 that starts on B when the frame before it has ended. -/
theorem test_witness_FramesStartOnlyThroughOpenGates :
    let d := descOf .drop none 0
    let s := { up with
      refCount := 760, queues := ⟨Quad.all [], ⟨[], [d], [], []⟩, Quad.all []⟩
      ports := ⟨up.ports.A, { up.ports.B with tx := some (txOf (.sync (parseSync (syncOf 3 0)))) }, up.ports.L⟩ }
    s.QueuedByClass ∧ exec (.transmissionEnd .B) s = .next (result (.transmissionEnd .B) s) ∧
    (((result (.transmissionEnd .B) s).port .B).tx.map Transmission.sending) = some (.desc d) ∧
    (s.port .B).tx ≠ ((result (.transmissionEnd .B) s).port .B).tx := by
  refine ⟨fun p c => ?_, rfl, by decide +kernel, by decide +kernel⟩
  cases p <;> fin_cases c <;> decide +kernel

theorem test_witness_GenerationRisesOnlyAtSwaps :
    exec .cycleEnd (roundEnd .free (some (commitOf .nextRound none))) =
      .next (result .cycleEnd (roundEnd .free (some (commitOf .nextRound none)))) ∧
    exec .identify busy = .next (result .identify busy) ∧ busy.gen.commit ≠ none ∧
    (result .identify busy).gen.commit ≠ none := ⟨rfl, rfl, by decide +kernel, by decide +kernel⟩

theorem test_witness_TableImagesRoundTrip :
    (streamImage entryB).length = 32 ∧ streamEncodingOk (streamImage entryB) = true ∧
    windowEncodingOk (windowImage WindowEntry.blank) = true ∧ (List.replicate 64 (0 : Byte)).length = 64 ∧
    baseEncodingOk (List.replicate 64 0) = true := by decide +kernel

end Sys2Proof.Tests
end

section
/-! The stream classifier's shared facts: when an arrival is intercepted, which entry it selects, and what the sequence
monitor and the byte budget judge (R38 to R47). -/

namespace Sys2Proof.Machine

open Sys2Proof

/-! ### Interception and the entry selected -/

theorem State.intercepts_iff (s : State) (a : Arrival) : s.intercepts a = true ↔
    (1 ≤ s.base.node.toNat ∧ s.base.node.toNat ≤ 253 ∧ a.dst = s.base.node) ∨
      (s.base.node = 0 ∧ a.dst = 0 ∧ a.port = .L) := by
  have pos : 1 ≤ s.base.node.toNat ↔ s.base.node ≠ 0 := by
    rw [Nat.one_le_iff_ne_zero, ne_eq, ne_eq, BitVec.toNat_eq]
    rfl
  simp only [State.intercepts, pos]
  by_cases h0 : s.base.node = 0
  · simp [h0]
  · simp only [h0, if_false, Bool.and_eq_true, decide_eq_true_eq, ne_eq, not_false_eq_true, true_and, false_and,
      or_false]

theorem kindAccepted_iff (kinds : BitVec 4) (kind : Byte) : kindAccepted kinds kind = true ↔
    (kind = 1 ∧ kinds.getLsbD 0 = true) ∨ (kind = 3 ∧ kinds.getLsbD 1 = true) ∨
      (kind = 4 ∧ kinds.getLsbD 2 = true) ∨ (kind = 5 ∧ kinds.getLsbD 3 = true) := by
  unfold kindAccepted kindData kindRequest kindReply kindNotice
  split_ifs <;> simp_all

theorem StreamEntry.accepts_iff (e : StreamEntry) (a : Arrival) : e.accepts a = true ↔
    e.valid = true ∧ e.ports.getLsbD (portBit a.port) = true ∧
      ((a.kind = 1 ∧ e.kinds.getLsbD 0 = true) ∨ (a.kind = 3 ∧ e.kinds.getLsbD 1 = true) ∨
        (a.kind = 4 ∧ e.kinds.getLsbD 2 = true) ∨ (a.kind = 5 ∧ e.kinds.getLsbD 3 = true)) ∧
      (e.srcAny = true ∨ e.src = a.src) ∧ (e.dstAny = true ∨ e.dst = a.dst) ∧
      e.tagLow.toNat ≤ a.tag.toNat ∧ a.tag.toNat ≤ e.tagHigh.toNat := by
  simp only [StreamEntry.accepts, Bool.and_eq_true, Bool.or_eq_true, decide_eq_true_eq, kindAccepted_iff, and_assoc]

/-- The first entry that accepts the arrival is the one selected (R43). -/
theorem State.selectEntry_eq_some {s : State} {a : Arrival} {i : Nat} {e : StreamEntry}
    (he : s.gen.active.streams[i]? = some e) (hacc : e.accepts a = true)
    (hfirst : ∀ j e', j < i → s.gen.active.streams[j]? = some e' → ¬ e'.accepts a = true) :
    s.selectEntry a = some (BitVec.ofNat 8 i, e) := by
  obtain ⟨hi, rfl⟩ := List.getElem?_eq_some_iff.mp he
  have hfind : s.gen.active.streams.zipIdx.find? (fun e => e.1.accepts a) =
      some (s.gen.active.streams[i], i) := by
    rw [List.find?_eq_some_iff_getElem]
    refine ⟨hacc, i, by simpa using hi, by simp, fun j hj => ?_⟩
    simpa using hfirst j _ hj (List.getElem?_eq_getElem (hj.trans hi))
  simp [State.selectEntry, hfind]

theorem State.selectEntry_eq_none {s : State} {a : Arrival}
    (h : ∀ e ∈ s.gen.active.streams, ¬ e.accepts a = true) : s.selectEntry a = none := by
  simp only [State.selectEntry, Option.map_eq_none_iff, List.find?_eq_none]
  exact fun x hx => h x.1 (List.fst_mem_of_mem_zipIdx hx)

/-- Settles O15: interception by `intercepts_iff`, then the lowest index by `selectEntry_eq_some`. -/
theorem classificationInterceptsThenMatches : Obligations.ClassificationInterceptsThenMatches := by
  intro s a own accepts
  have hown : own ↔ s.intercepts a = true := (s.intercepts_iff a).symm
  have hacc : ∀ e, accepts e ↔ e.accepts a = true := fun e => (e.accepts_iff a).symm
  simp only [hown, hacc, State.classify]
  refine ⟨fun h hk => ?_, fun h hk => ?_, fun i e h _ he ha hfirst => ?_, fun h hnone => ?_⟩
  · rw [if_pos h, if_pos (show a.kind = kindRequest from hk)]
  · rw [if_pos h, if_neg (show a.kind ≠ kindRequest from hk)]
  · rw [if_neg h, State.selectEntry_eq_some he ha hfirst]
  · rw [if_neg h, State.selectEntry_eq_none hnone]

/-! ### The sequence monitor and the byte budget -/

/-- The per-stream state that stands in the list, as the classifier reads it. -/
theorem State.stream_of_getElem? {s : State} {i : Byte} {st : StreamState}
    (h : s.streams[i.toNat]? = some st) : s.stream i = st := by
  simp [State.stream, List.getD_eq_getElem?_getD, h]

/-- Changing a per-stream state that stands in the list puts the changed value in its place. -/
theorem State.modStream_of_getElem? {s : State} {i : Byte} {st : StreamState} {f : StreamState → StreamState}
    (h : s.streams[i.toNat]? = some st) : s.modStream i f = { s with streams := s.streams.set i.toNat (f st) } := by
  simp [State.modStream, List.modify_eq_set_getElem?, h]

theorem judgeSequence_expected (q : Byte) : judgeSequence (some q) q = .inOrder := by
  simp [judgeSequence]

/-- A value 1 to 16 behind the expectation is a duplicate (R45). -/
theorem judgeSequence_behind {x q : Byte} (h1 : 1 ≤ (x - q).toNat) (h16 : (x - q).toNat ≤ 16) :
    judgeSequence (some x) q = .duplicate := by
  have hne : q ≠ x := by rintro rfl; simp at h1
  rw [judgeSequence, if_neg hne, if_pos h16]

/-- A value 1 to 239 ahead of the expectation is a gap, since it is 17 to 255 behind it (R45). -/
theorem judgeSequence_ahead {x q : Byte} (h1 : 1 ≤ (q - x).toNat) (h239 : (q - x).toNat ≤ 239) :
    judgeSequence (some x) q = .ahead (q - x).toNat := by
  have hne : q ≠ x := by rintro rfl; simp at h1
  have hfar : ¬ (x - q).toNat ≤ 16 := by bv_omega
  rw [judgeSequence, if_neg hne, if_neg hfar]

/-- Both monitors that are not OFF judge alike; they part only over a duplicate (R45). -/
theorem State.monitorStep_of_on {s : State} {i : Byte} {e : StreamEntry} {a : Arrival} {st : StreamState}
    (hon : e.monitor ≠ .off) (h : s.streams[i.toNat]? = some st) : s.monitorStep i e a =
      (s.modStream i fun _ => st.afterSequence a.sequence (judgeSequence st.expectation a.sequence),
        decide (e.monitor = .count ∨ judgeSequence st.expectation a.sequence ≠ .duplicate)) := by
  cases hm : e.monitor with
  | off => exact absurd hm hon
  | count => simp [State.monitorStep, hm, State.modStream_of_getElem? h]
  | discard => simp [State.monitorStep, hm, State.modStream_of_getElem? h, State.stream_of_getElem? h]

/-- Settles O17, judgement by judgement. -/
theorem monitorAndBudgetJudge : Obligations.MonitorAndBudgetJudge := by
  intro s i e a st x h put
  refine ⟨fun hoff => ?_, fun hon hx => ?_, fun hon hx h1 h16 => ?_, fun hon hx h1 h239 => ?_, fun h0 => ?_,
    fun h0 hfit => ?_, fun h0 hover => ?_⟩
  · simp [State.monitorStep, hoff]
  · rw [State.monitorStep_of_on hon h]
    obtain hx | hx := hx
    · simp [hx, judgeSequence, StreamState.afterSequence, State.modStream_of_getElem? h, put]
    · simp [hx, judgeSequence_expected, StreamState.afterSequence, State.modStream_of_getElem? h, put]
  · rw [State.monitorStep_of_on hon h, hx, judgeSequence_behind h1 h16, State.modStream_of_getElem? h]
    simp [StreamState.afterSequence, StreamCounters.incDuplicates, hx, put]
  · rw [State.monitorStep_of_on hon h, hx, judgeSequence_ahead h1 h239, State.modStream_of_getElem? h]
    simp [StreamState.afterSequence, StreamCounters.addGaps, put]
  · rw [State.budgetStep, if_pos h0]
  · rw [State.budgetStep, if_neg h0, State.stream_of_getElem? h, if_pos hfit, State.modStream_of_getElem? h]
  · rw [State.budgetStep, if_neg h0, State.stream_of_getElem? h, if_neg (Nat.not_le.mpr hover), State.countStream,
      State.modStream_of_getElem? h]
    cases e.overBudget <;> rfl

end Sys2Proof.Machine
end

section
/-! The arrivals that go on: the steps of a matched arrival by its entry (R43 to R47), the copies a frame makes and the
slot that they hold (R48 to R50, R67), and the default route of an unmatched arrival (R51, R52). -/

namespace Sys2Proof.Machine

open Sys2Proof

/-! ### Retention and the slot's count -/

/-- An accepted offer, with the RETENTION_HIGH event of the rise to the high mark (R110, R111). -/
theorem State.retain_eq_ite (s : State) (r : Record) : s.retain r =
    let kept := { s with retention := { s.retention with records := s.retention.records ++ [r] } }
    if s.retention.records.length + 1 = s.base.highMark.toNat then kept.noticeEvent .retentionHigh else kept := by
  simp only [State.retain, State.setRecords, List.length_append, List.length_singleton]

/-- An offer to the retention queue does not look at the frame store. -/
theorem State.retain_with_store (s : State) (r : Record) (f : FrameStore) :
    { s.retain r with store := f } = State.retain { s with store := f } r := by
  simp only [State.retain_eq, State.noticeEvent_mgmt { s with store := f } s .retentionHigh rfl rfl]

theorem State.retentionRoom_eq (s : State) : s.retentionRoom = decide (s.retention.records.length < 32) := rfl

theorem State.settleSlot_eq_ite (s : State) (slot n : Nat) : s.settleSlot slot n =
    if n = 0 then s.releaseSlot slot else { s with store := { s.store with count := s.store.count.set slot n } } := by
  cases n <;> rfl

/-! ### A matched arrival -/

/-- What an offer to the retention queue reads is as it was before the sequence monitor (R45). -/
theorem State.monitorStep_keeps_retention {s s3 : State} {i : Byte} {e : StreamEntry} {a : Arrival} {goesOn : Bool}
    (h : s.monitorStep i e a = (s3, goesOn)) : s3.retention = s.retention ∧ s3.base = s.base := by
  obtain rfl : s3 = (s.monitorStep i e a).1 := by rw [h]
  simp

/-- Settles O18: the steps of `classifyMatched` in order, each branch by what the step before it answers. -/
theorem matchedArrivalFollowsItsAction : Obligations.MatchedArrivalFollowsItsAction := by
  intro s i e a s2 drop
  have hlong : e.maxLength.toNat < a.length → s.classifyMatched i e a = drop s2 := fun h => if_pos h
  have hstep : a.length ≤ e.maxLength.toNat → s.classifyMatched i e a =
      if (s2.monitorStep i e a).2 then (s2.monitorStep i e a).1.actionStep i e a
      else drop (s2.monitorStep i e a).1 := fun h => if_neg (Nat.not_lt.mpr h)
  refine ⟨hlong, fun hfits => ⟨fun s3 h3 => ?_, fun s3 h3 hact => ?_,
    fun s3 h3 hact => ⟨fun s4 h4 => ?_, fun s4 c h4 => ?_⟩,
    fun s3 h3 hact => ⟨fun hroom => ?_, fun hfull => ?_⟩⟩⟩
  all_goals
    rw [hstep hfits, h3]
    simp only [Bool.false_eq_true, if_false, if_true]
  · simp only [State.actionStep, hact]
    rfl
  · simp only [State.actionStep, hact, State.budgetAndForward, h4]
    rfl
  · simp only [State.actionStep, hact, State.budgetAndForward, h4]
  all_goals
    obtain ⟨hret, hbase⟩ : s3.retention = s.retention ∧ s3.base = s.base :=
      State.monitorStep_keeps_retention (s := s2) h3
    simp only [State.actionStep, hact, State.captureFrame, State.retentionRoom_eq, hret, decide_eq_true_eq]
  · rw [if_pos hroom, State.retain_eq_ite, hret, hbase]
    rfl
  · rw [if_neg (Nat.not_lt.mpr hfull), State.overflow, hret]
    rfl

/-! ### The copies of a frame -/

/-- A queue that takes no traffic copy: at its limit, at 128, or with the descriptor pool empty (R66, R67). -/
abbrev State.NoRoom (s : State) (p : Port) (c : Cls) : Prop :=
  ((s.base.limits.get p).get c).toNat ≤ (s.egress p c).length ∨ 128 ≤ (s.egress p c).length ∨ s.descsFree = 0

/-- The append of a traffic copy is accepted exactly on an UP port with room (R67). -/
theorem State.trafficAnswer_eq_accepted_iff (s : State) (p : Port) (c : Cls) :
    s.trafficAnswer p c = .accepted ↔ (s.port p).state = .up ∧ ¬ s.NoRoom p c := by
  rw [State.trafficAnswer_eq]
  split_ifs <;> simp only [State.NoRoom, false_iff, true_iff] <;> tauto

theorem State.trafficAnswer_eq_portNotUp_iff (s : State) (p : Port) (c : Cls) :
    s.trafficAnswer p c = .portNotUp ↔ (s.port p).state ≠ .up := by
  rw [State.trafficAnswer_eq]
  split_ifs <;> simp_all

/-- On an UP port only want of room refuses an append (R67). -/
theorem State.noRoom_of_refused {s : State} {p : Port} {c : Cls} (hdown : s.trafficAnswer p c ≠ .portNotUp)
    (hacc : s.trafficAnswer p c ≠ .accepted) : (s.port p).state = .up ∧ s.NoRoom p c := by
  rw [ne_eq, State.trafficAnswer_eq_portNotUp_iff, not_not] at hdown
  rw [ne_eq, State.trafficAnswer_eq_accepted_iff, not_and, not_not] at hacc
  exact ⟨hdown, hacc hdown⟩

/-- What the copy for one port makes of the state, and the holders of the slot that it makes, 0 or 1 (R49, R50). -/
def State.copyFor (i : Byte) (e : StreamEntry) (c : Cls) (a : Arrival) (s : State) (p : Port) : State × Nat :=
  if (s.port p).state = .up then
    if s.NoRoom p c then (s.countStream i StreamCounters.incDropped, 0)
    else (s.append p c (streamDesc i e c a), 1)
  else s.copyDown i e c a p

/-- Every late policy but RETAIN drops the copy for a port that is not UP (R49). -/
theorem State.copyDown_of_not_retain (s : State) (i : Byte) {e : StreamEntry} (c : Cls) (a : Arrival) (p : Port)
    (h : e.late ≠ .retain) : s.copyDown i e c a p = (s.countStream i StreamCounters.incDropped, 0) := by
  unfold State.copyDown
  split <;> simp_all

theorem State.copyDown_of_retain (s : State) (i : Byte) {e : StreamEntry} (c : Cls) (a : Arrival) (p : Port)
    (h : e.late = .retain) : s.copyDown i e c a p =
      if s.retention.records.length < 32 then
        (s.retain { slot := a.slot, reason := .portDown, stream := i, ingress := a.port, egress := some p, cls := c
                    maxWait := maxWaitOf e.maxWait, stamp := a.stamp.start, length := a.length }, 1)
      else (s.overflow.countStream i StreamCounters.incDropped, 0) := by
  simp only [State.copyDown, h, State.retentionRoom_eq, decide_eq_true_eq]

/-- The copies of a frame are made one after another, and their holders add up. -/
theorem State.copyStep_eq (i : Byte) (e : StreamEntry) (c : Cls) (a : Arrival) (acc : State × Nat) (p : Port) :
    State.copyStep i e c a acc p =
      ((State.copyFor i e c a acc.1 p).1, acc.2 + (State.copyFor i e c a acc.1 p).2) := by
  cases h : acc.1.trafficAnswer p c
  case accepted =>
    obtain ⟨hup, hroom⟩ := (acc.1.trafficAnswer_eq_accepted_iff p c).mp h
    simp only [State.copyStep, h, State.copyFor, if_pos hup, if_neg hroom]
  case portNotUp =>
    have hdown := (acc.1.trafficAnswer_eq_portNotUp_iff p c).mp h
    simp only [State.copyStep, h, State.copyFor, if_neg hdown]
  case atLimit | noDescriptor =>
    obtain ⟨hup, hfull⟩ : (acc.1.port p).state = .up ∧ acc.1.NoRoom p c :=
      State.noRoom_of_refused (by simp [h]) (by simp [h])
    simp only [State.copyStep, h, State.copyFor, if_pos hup, if_pos hfull, Nat.add_zero]

theorem State.forwardMatched_ingress {s : State} {i : Byte} {e : StreamEntry} {c : Cls} {a : Arrival}
    (h : a.port ∈ s.routePorts e.route a) : s.forwardMatched i e c a = s.dropCopy i a.slot := by
  simp [State.forwardMatched, h]

theorem State.forwardMatched_one {s : State} {i : Byte} {e : StreamEntry} {c : Cls} {a : Arrival} {p : Port}
    (h : s.routePorts e.route a = [p]) (hp : p ≠ a.port) : s.forwardMatched i e c a =
      (State.copyFor i e c a s p).1.settleSlot a.slot (State.copyFor i e c a s p).2 := by
  simp [State.forwardMatched, h, hp.symm, State.copyStep_eq]

theorem State.forwardMatched_two {s : State} {i : Byte} {e : StreamEntry} {c : Cls} {a : Arrival} {p q : Port}
    (h : s.routePorts e.route a = [p, q]) (ha : a.port ∉ [p, q]) : s.forwardMatched i e c a =
      let x := State.copyFor i e c a s p
      let y := State.copyFor i e c a x.1 q
      y.1.settleSlot a.slot (x.2 + y.2) := by
  simp [State.forwardMatched, h, List.contains_eq_mem, ha, State.copyStep_eq]

/-- Settles O19, outcome by outcome of the copy for the one port. -/
theorem oneCopyIsQueuedRetainedOrDropped : Obligations.OneCopyIsQueuedRetainedOrDropped := by
  intro s i e c a p hroute drop full
  refine ⟨fun _ => rfl, fun hp => ?_, fun hp hup hroom => ?_, fun hp hup hfull => ?_, fun hp hdown hlate => ?_,
    fun hp hdown hlate hfull => ?_, fun hp hdown hlate hroom => ?_⟩
  · exact State.forwardMatched_ingress (by simp [hroute, hp])
  all_goals rw [State.forwardMatched_one hroute hp, State.copyFor]
  · rw [if_pos hup, if_neg hroom]
    rfl
  · rw [if_pos hup, if_pos hfull]
    rfl
  all_goals rw [if_neg hdown]
  · rw [State.copyDown_of_not_retain s i c a p hlate]
    rfl
  · rw [State.copyDown_of_retain s i c a p hlate, if_neg (Nat.not_lt.mpr hfull)]
    rfl
  · rw [State.copyDown_of_retain s i c a p hlate, if_pos hroom, State.settleSlot_eq_ite, if_neg one_ne_zero,
      State.retain_with_store, State.retain_eq_ite]
    simp only [State.retain_frame]
    rfl

/-- A route that gives two ports gives the two ports other than the ingress port (R48, R52). -/
theorem State.routePorts_two {s : State} {r : Route} {a : Arrival} {p q : Port} (h : s.routePorts r a = [p, q]) :
    a.port ∉ [p, q] := by
  have hother : otherPorts a.port = [p, q] := by
    cases r with
    | port x => simp [State.routePorts] at h
    | bothOthers => exact h
    | default =>
      simp only [State.routePorts, State.defaultRoute] at h
      split_ifs at h
      · simp at h
      · exact h
      · split at h <;> simp at h
  rw [← hother]
  cases a.port <;> decide

/-- Settles O20: two copies one after the other, and the slot settled by their sum. -/
theorem bothOthersMakesTwoCopiesInPortOrder : Obligations.BothOthersMakesTwoCopiesInPortOrder := by
  intro s i e c a p q hroute dropped copy
  have hcopy : ∀ s p, State.copyFor i e c a s p = copy s p := by
    intro s p
    by_cases hlate : e.late = .retain
    · simp only [State.copyFor, State.copyDown_of_retain s i c a p hlate, copy, hlate, if_true]
      rfl
    · simp only [State.copyFor, State.copyDown_of_not_retain s i c a p hlate, copy, hlate, if_false]
      rfl
  refine ⟨?_, ?_⟩
  · cases h : a.port <;> simp [State.routePorts, h, otherPorts]
  · rw [State.forwardMatched_two hroute (State.routePorts_two hroute)]
    simp only [hcopy, State.settleSlot_eq_ite]

/-! ### An unmatched arrival -/

/-- What the copy of an unmatched frame for one port makes of the state, and the holders of the slot that it makes
(R51). -/
def State.unmatchedFor (a : Arrival) (s : State) (p : Port) : State × Nat :=
  if (s.port p).state = .up ∧ ¬ s.NoRoom p 3 then (s.append p 3 (unmatchedDesc a), 1) else (s, 0)

theorem State.unmatchedCopy_eq (a : Arrival) (acc : State × Nat) (p : Port) : State.unmatchedCopy a acc p =
    ((State.unmatchedFor a acc.1 p).1, acc.2 + (State.unmatchedFor a acc.1 p).2) := by
  have hacc := acc.1.trafficAnswer_eq_accepted_iff p 3
  by_cases htake : (acc.1.port p).state = .up ∧ ¬ acc.1.NoRoom p 3
  · simp only [State.unmatchedCopy, hacc.mpr htake, State.unmatchedFor, if_pos htake]
  · have hrefused := mt hacc.mp htake
    simp only [State.unmatchedFor, if_neg htake, Nat.add_zero]
    unfold State.unmatchedCopy
    split
    · exact absurd ‹_› hrefused
    all_goals rfl

/-- Counting at a port takes no descriptor. -/
@[simp] theorem State.descsFree_countPort (s : State) (p : Port) (f : PortCounters → PortCounters) :
    (s.countPort p f).descsFree = s.descsFree := by
  simp only [State.descsFree, State.descsInUse, ← List.countP_eq_length_filter, State.countPort_frame]
  cases p <;> rfl

/-- Counting at a port makes no room and takes none. -/
theorem State.noRoom_countPort (s : State) (x p : Port) (c : Cls) (f : PortCounters → PortCounters) :
    (s.countPort x f).NoRoom p c ↔ s.NoRoom p c := by
  simp [State.NoRoom]

theorem State.defaultRoute_countPort (s : State) (p : Port) (f : PortCounters → PortCounters) (a : Arrival) :
    (s.countPort p f).defaultRoute a = s.defaultRoute a := by
  simp [State.defaultRoute]

theorem State.classifyUnmatched_drop {s : State} (a : Arrival) (h : s.base.unmatched = .drop) :
    s.classifyUnmatched a = (s.countPort a.port PortCounters.incUnmatched).releaseSlot a.slot := by
  simp [State.classifyUnmatched, h]

/-- The unmatched frame that is forwarded, before its ports are known. -/
theorem State.classifyUnmatched_forward {s : State} (a : Arrival) (h : s.base.unmatched = .forward) :
    s.classifyUnmatched a =
      let counted := s.countPort a.port PortCounters.incUnmatched
      if a.port ∈ s.defaultRoute a then counted.releaseSlot a.slot
      else
        let r := (s.defaultRoute a).foldl (State.unmatchedCopy a) (counted, 0)
        r.1.settleSlot a.slot r.2 := by
  simp [State.classifyUnmatched, h, State.defaultRoute_countPort]

theorem State.classifyUnmatched_one {s : State} {a : Arrival} {p : Port} (h : s.base.unmatched = .forward)
    (hroute : s.defaultRoute a = [p]) (hp : p ≠ a.port) : s.classifyUnmatched a =
      let x := State.unmatchedFor a (s.countPort a.port PortCounters.incUnmatched) p
      x.1.settleSlot a.slot x.2 := by
  simp [State.classifyUnmatched_forward a h, hroute, hp.symm, State.unmatchedCopy_eq]

theorem State.classifyUnmatched_two {s : State} {a : Arrival} {p q : Port} (h : s.base.unmatched = .forward)
    (hroute : s.defaultRoute a = [p, q]) (ha : a.port ∉ [p, q]) : s.classifyUnmatched a =
      let x := State.unmatchedFor a (s.countPort a.port PortCounters.incUnmatched) p
      let y := State.unmatchedFor a x.1 q
      y.1.settleSlot a.slot (x.2 + y.2) := by
  simp only [State.classifyUnmatched_forward a h, hroute, if_neg ha, List.foldl_cons, List.foldl_nil,
    State.unmatchedCopy_eq, Nat.zero_add]

/-- The stations that count are those below the station count (12.4). -/
theorem BaseRecord.mem_stationList (b : BaseRecord) (x : Byte) :
    x ∈ b.stationList ↔ ∃ k, k < b.stationCount.toNat ∧ b.stations.toList[k]? = some x := by
  simp [BaseRecord.stationList, List.mem_iff_getElem?, List.getElem?_take]

/-- Settles O21: the default route case by case, then the copies it makes. -/
theorem unmatchedArrivalTakesTheDefaultRoute : Obligations.UnmatchedArrivalTakesTheDefaultRoute := by
  intro s a p counted full listed
  have hlisted : listed ↔ s.base.stationList.contains a.dst = true := by
    rw [List.contains_iff_mem, BaseRecord.mem_stationList]
  have hcopy : State.unmatchedFor a counted p = if (s.port p).state = .up ∧ ¬ full then
      (counted.append p 3 (unmatchedDesc a), 1) else (counted, 0) := by
    simp only [State.unmatchedFor, counted, State.noRoom_countPort, State.countPort_frame]
    rfl
  refine ⟨rfl, fun hl => ?_, fun hl hd => ?_, fun hl hd => ?_, State.classifyUnmatched_drop a,
    fun hf hroute hnot => ?_, fun hf hroute hp hup hroom => ?_, fun q hf hroute ha => ?_⟩
  · rw [State.defaultRoute, if_pos (hlisted.mp hl)]
  · rw [State.defaultRoute, if_neg (mt hlisted.mpr hl), if_pos (show a.dst = 0xFF from hd)]
    cases a.port <;> rfl
  · rw [State.defaultRoute, if_neg (mt hlisted.mpr hl), if_neg (show a.dst ≠ 0xFF from hd)]
    cases a.port <;> rfl
  · by_cases hp : p = a.port
    · simp [State.classifyUnmatched_forward a hf, hroute, hp, counted]
    · have hrefused : ¬ ((s.port p).state = .up ∧ ¬ full) := fun ⟨hup, hroom⟩ =>
        hnot.elim hp fun h => h.elim (· hup) hroom
      rw [State.classifyUnmatched_one hf hroute hp, hcopy, if_neg hrefused]
      rfl
  · rw [State.classifyUnmatched_one hf hroute hp, hcopy, if_pos ⟨hup, hroom⟩]
    simp only [State.append, counted]
    rfl
  · have hroom : ∀ s : State, ∀ p, State.unmatchedFor a s p =
        if (s.port p).state = .up ∧ (s.egress p 3).length < ((s.base.limits.get p).get 3).toNat ∧
          (s.egress p 3).length < 128 ∧ 1 ≤ s.descsFree then (s.append p 3 (unmatchedDesc a), 1) else (s, 0) := by
      intro s p
      simp only [State.unmatchedFor, State.NoRoom, not_or, not_le, Nat.one_le_iff_ne_zero, ne_eq]
    rw [State.classifyUnmatched_two hf hroute ha]
    simp only [hroom, State.settleSlot_eq_ite]
    rfl

end Sys2Proof.Machine
end

section
/-! Lateness of a descriptor, and the state of a gate and its guard bound as the open windows give them (R80, R81, R85,
R87). -/

namespace Sys2Proof.Machine

open Sys2Proof

/-- Settles O32, from the stamps' distance modulo 2 ^ 32. -/
theorem latenessComparesCycleCounts : Obligations.LatenessComparesCycleCounts := by
  intro d now
  refine ⟨fun hnone => by simp [Desc.isLate, hnone], fun st hst => ?_⟩
  have hdist : (now - st.cycleCount).toNat = (now.toNat + 4294967296 - st.cycleCount.toNat) % 4294967296 := by
    bv_omega
  rw [← hdist]
  cases hw : d.maxWait <;> simp [Desc.isLate, hst, hw]

/-! ### Gates and guard bounds -/

/-- R81, condition by condition. -/
theorem State.gateOpen_iff (s : State) (p : Port) (c : Cls) : s.gateOpen p c = true ↔
    ((∀ o ∈ (s.gates.get p).windows, o.exclusive = false) ∨
      ∃ o, (o ∈ (s.gates.get p).windows ∧ o.names c = true) ∧ o.exclusive = true) ∧
    ((∃ o, o ∈ (s.gates.get p).windows ∧ o.names c = true) ∨ ¬ s.isScheduled p c = true) := by
  simp [State.gateOpen, and_assoc, Bool.and_comm (OpenWindow.exclusive _)]

/-- With no window open the gates of the classes that are not scheduled are open, and no other. -/
theorem State.gateOpen_of_windows_nil {s : State} {p : Port} (h : (s.gates.get p).windows = []) (c : Cls) :
    s.gateOpen p c = !s.isScheduled p c := by
  simp [State.gateOpen, h]

/-- The largest value that a list takes, which is not empty. -/
theorem foldl_max_map_eq_iff {α : Type} {f : α → Nat} {l : List α} (h : l ≠ []) (b : Nat) :
    (l.map f).foldl max 0 = b ↔ (∃ x ∈ l, f x = b) ∧ ∀ x ∈ l, f x ≤ b := by
  obtain ⟨x, xs, rfl⟩ := List.exists_cons_of_ne_nil h
  rw [← List.mem_map, ← List.forall_mem_map (P := (· ≤ b)), ← List.max?_eq_some_iff, List.map_cons, List.max?_cons',
    List.foldl_cons, Nat.zero_max, Option.some_inj]

/-- Which gates have no guard bound (R85). -/
theorem State.guardBound_eq_none_iff (s : State) (p : Port) (c : Cls) : s.guardBound p c = none ↔
    s.gateOpen p c = false ∨ ¬ s.isScheduled p c = true ∨
      ∃ o, (o ∈ (s.gates.get p).windows ∧ o.names c = true) ∧ o.guarded = false := by
  simp [State.guardBound, or_iff_not_imp_left, and_assoc]

/-- The guard bound is the latest close point of the windows that name the class (R85); R81 gives an open gate of a
scheduled class one that does. -/
theorem State.guardBound_eq_some_iff (s : State) (p : Port) (c : Cls) (b : Nat) : s.guardBound p c = some b ↔
    s.gateOpen p c = true ∧ s.isScheduled p c = true ∧
      (∀ o, o ∈ (s.gates.get p).windows ∧ o.names c = true → o.guarded = true) ∧
      (∃ o, (o ∈ (s.gates.get p).windows ∧ o.names c = true) ∧ o.close.toNat s.timer.effLength = b) ∧
      ∀ o, o ∈ (s.gates.get p).windows ∧ o.names c = true → o.close.toNat s.timer.effLength ≤ b := by
  by_cases hopen : s.gateOpen p c = true ∧ s.isScheduled p c = true
  · obtain ⟨hgate, hsched⟩ := hopen
    obtain ⟨o, ho, hname⟩ := ((s.gateOpen_iff p c).mp hgate).2.resolve_right (not_not_intro hsched)
    have hne : ((s.gates.get p).windows.filter fun o => o.names c) ≠ [] :=
      List.ne_nil_of_mem (List.mem_filter.mpr ⟨ho, hname⟩)
    simp only [State.guardBound, hgate, hsched, Bool.and_self, Bool.true_and, Option.ite_none_right_eq_some,
      Option.some_inj, foldl_max_map_eq_iff hne, List.all_eq_true, List.mem_filter, true_and]
  · have hnone : s.guardBound p c = none := by
      rw [State.guardBound_eq_none_iff, ← Bool.not_eq_true, ← or_assoc, ← not_and_or]
      exact .inl hopen
    simp only [hnone, reduceCtorEq, false_iff]
    exact fun ⟨hgate, hsched, _⟩ => hopen ⟨hgate, hsched⟩

/-- Settles O31: R81 by `gateOpen_iff`, R85 by the two lemmas on the guard bound. -/
theorem gatesAndGuardBoundsFollowTheOpenWindows : Obligations.GatesAndGuardBoundsFollowTheOpenWindows := by
  intro s p c names scheduled point
  have hpoint : ∀ o : OpenWindow, point o = o.close.toNat s.timer.effLength := by
    intro o
    simp only [point]
    cases o.close <;> rfl
  refine ⟨s.gateOpen_iff p c, fun b => ?_, s.guardBound_eq_none_iff p c⟩
  simp only [hpoint]
  exact s.guardBound_eq_some_iff p c b

end Sys2Proof.Machine
end

section
/-! The gate controller's operations, said once: which windows open (R77, R78, R83), what an evaluation records and
reports (R82), and what the operations on all ports leave on each of them. -/

namespace Sys2Proof.Machine

open Sys2Proof

/-! ### Running and held -/

theorem runningUnder_eq (policy : UnlockedPolicy) (sync : SyncState) :
    runningUnder policy sync = decide (policy = .runLocal ∨ sync = .locked ∨ sync = .holdover) := by
  cases policy <;> simp [runningUnder]

theorem State.scheduleRuns_iff (s : State) : s.scheduleRuns = true ↔ s.Running := by
  rw [State.scheduleRuns, runningUnder_eq, decide_eq_true_iff]
  rfl

theorem State.scheduleRuns_eq_false_iff (s : State) : s.scheduleRuns = false ↔ ¬ s.Running := by
  rw [← State.scheduleRuns_iff, Bool.not_eq_true]

/-- Whether the part runs its schedule depends on its bank and its sync state alone. -/
theorem State.running_congr {s t : State} (htimer : t.timer = s.timer) (hgen : t.gen = s.gen) :
    t.Running ↔ s.Running := by
  simp only [State.Running, State.base, htimer, hgen]

/-! ### Windows that open -/

theorem WindowEntry.activeIn_iff (w : WindowEntry) (r : W16) (i : Nat) : w.activeIn r i = true ↔
    (w.indexMatch = 0xFF ∨ w.indexMatch.toNat = i) ∧ r.toNat % w.modulus.toNat = w.residue.toNat := by
  simp only [WindowEntry.activeIn, Bool.and_eq_true, Bool.or_eq_true, decide_eq_true_eq]

theorem State.covers_iff (s : State) (pos : Nat) (w : WindowEntry × Nat) :
    s.covers pos w.1 = true ↔ s.Spans pos w := by
  rw [State.covers, State.Spans, Bool.and_eq_true, decide_eq_true_iff, WindowEntry.closePoint]
  split <;> simp [ClosePoint.isAfter] <;> omega

/-- The records of the windows that open on a port (R78); none while the part is held (R83). -/
def State.opened (s : State) (p : Port) (due : WindowEntry → Bool) : List OpenWindow :=
  if s.scheduleRuns then (s.opening p due).map s.openRecord else []

theorem State.openWindows_eq (s : State) (p : Port) (due : WindowEntry → Bool) :
    s.openWindows p due = s.modGates p fun g => { g with windows := g.windows ++ s.opened p due } := by
  unfold State.openWindows State.opened
  split
  · rfl
  · simp only [State.modGates, List.append_nil]
    exact (congrArg (fun g => { s with gates := g }) (Trio.set_get s.gates p)).symm

theorem State.mem_opening_iff (s : State) (p : Port) (due : WindowEntry → Bool) (w : WindowEntry × Nat) :
    w ∈ s.opening p due ↔ w ∈ s.gen.active.windows.zipIdx ∧ w.1.valid = true ∧ w.1.port = p ∧
      w.1.activeIn s.timer.round s.timer.index = true ∧
        (∀ o ∈ (s.gates.get p).windows, o.index ≠ w.2) ∧ due w.1 = true := by
  simp only [State.opening, State.activeWindows, State.isOpen, List.mem_filter, Bool.and_eq_true, decide_eq_true_eq,
    Bool.not_eq_true', List.any_eq_false, beq_iff_eq, ne_eq, and_assoc]

/-- Windows open in index order. -/
theorem State.opening_pairwise (s : State) (p : Port) (due : WindowEntry → Bool) :
    ((s.opening p due).map Prod.snd).Pairwise (· < ·) := by
  have hall : (s.gen.active.windows.zipIdx.map Prod.snd).Pairwise (· < ·) := by
    rw [List.zipIdx_map_snd]
    exact List.pairwise_lt_range'
  exact hall.sublist ((List.filter_sublist.trans List.filter_sublist).map _)

theorem State.opens_opened (s : State) (p : Port) (d : WindowEntry → Bool) {due : WindowEntry × Nat → Prop}
    (hdue : ∀ w, due w ↔ (∀ o ∈ (s.gates.get p).windows, o.index ≠ w.2) ∧ d w.1 = true) :
    s.Opens p due (s.opened p d) := by
  refine ⟨fun hheld => ?_, fun hruns => ⟨s.opening p d, ?_, s.opening_pairwise p d, fun w => ?_⟩⟩
  · rw [State.opened, (s.scheduleRuns_eq_false_iff).mpr hheld]
    rfl
  · rw [State.opened, (s.scheduleRuns_iff).mpr hruns]
    rfl
  · rw [State.mem_opening_iff, WindowEntry.activeIn_iff, and_assoc, hdue]

theorem State.opens_congr {s t : State} (htimer : t.timer = s.timer) (hgen : t.gen = s.gen) (p : Port)
    (due : WindowEntry × Nat → Prop) (ws : List OpenWindow) : t.Opens p due ws ↔ s.Opens p due ws := by
  simp only [State.Opens, State.running_congr htimer hgen, htimer, hgen]

/-- What opens on a port depends on the port's open windows, the timer and the bank. -/
theorem State.opened_congr {s t : State} {p : Port} (htimer : t.timer = s.timer) (hgen : t.gen = s.gen)
    (hwin : (t.gates.get p).windows = (s.gates.get p).windows) (due : WindowEntry → Bool) :
    t.opened p due = s.opened p due := by
  have hruns : t.scheduleRuns = s.scheduleRuns := by simp only [State.scheduleRuns, State.base, htimer, hgen]
  have hrecord : t.openRecord = s.openRecord := by funext w; simp only [State.openRecord, htimer]
  simp only [State.opened, State.opening, State.activeWindows, State.isOpen, hruns, hrecord, htimer, hgen, hwin]

/-! ### Evaluation -/

/-- The gate of a class depends on the port's open windows and the base record. -/
theorem State.gateOpen_congr {s t : State} {p : Port} (hgen : t.gen = s.gen)
    (hwin : (t.gates.get p).windows = (s.gates.get p).windows) (c : Cls) : t.gateOpen p c = s.gateOpen p c := by
  simp only [State.gateOpen, State.isScheduled, State.base, hgen, hwin]

theorem State.guardBound_congr {s t : State} {p : Port} (htimer : t.timer = s.timer) (hgen : t.gen = s.gen)
    (hwin : (t.gates.get p).windows = (s.gates.get p).windows) (c : Cls) : t.guardBound p c = s.guardBound p c := by
  have hsched : t.isScheduled p c = s.isScheduled p c := by simp only [State.isScheduled, State.base, hgen]
  simp only [State.guardBound, State.gateOpen_congr hgen hwin, hsched, htimer, hwin]

/-- Whether the evaluation of a class's gate is reported, from the gate and bound that stand recorded. -/
def State.reports (mode : ReportMode) (s : State) (p : Port) (c : Cls) : Bool :=
  reported mode ((s.gates.get p).gate.get c) (s.gateOpen p c) ((s.gates.get p).bound.get c) (s.guardBound p c)

/-- An evaluation reports every open gate at a cycle end and a step event (R82). -/
theorem State.reports_everyOpen (s : State) (p : Port) (c : Cls) :
    State.reports .everyOpen s p c = s.gateOpen p c := rfl

/-- An evaluation reports the gates that open and those whose bound is eased (R82). -/
theorem State.reports_changes_iff (s : State) (p : Port) (c : Cls) : State.reports .changes s p c = true ↔
    s.gateOpen p c = true ∧ ((s.gates.get p).gate.get c = false ∨
      ∃ b, (s.gates.get p).bound.get c = some b ∧ ∀ b', s.guardBound p c = some b' → b < b') := by
  simp only [State.reports, reported, Bool.and_eq_true, Bool.or_eq_true, Bool.not_eq_true', boundEased_iff]

/-- What stands recorded of a port after an evaluation: its windows, and the gates and bounds that they give. -/
def State.evaluated (s : State) (p : Port) : GateUnit := { s.gates.get p with
  gate := ⟨s.gateOpen p 0, s.gateOpen p 1, s.gateOpen p 2, s.gateOpen p 3⟩
  bound := ⟨s.guardBound p 0, s.guardBound p 1, s.guardBound p 2, s.guardBound p 3⟩ }

@[simp] theorem State.windows_evaluated (s : State) (p : Port) :
    (s.evaluated p).windows = (s.gates.get p).windows := rfl

@[simp] theorem State.gate_evaluated (s : State) (p : Port) (c : Cls) :
    (s.evaluated p).gate.get c = s.gateOpen p c := by
  fin_cases c <;> rfl

@[simp] theorem State.bound_evaluated (s : State) (p : Port) (c : Cls) :
    (s.evaluated p).bound.get c = s.guardBound p c := by
  fin_cases c <;> rfl

theorem State.evaluate_eq (mode : ReportMode) (s : State) (p : Port) : State.evaluate mode s p = { s with
    gates := s.gates.set p (s.evaluated p)
    opportunities := if allClasses.any (State.reports mode s p) then s.opportunities.set p true
      else s.opportunities } := by
  have hreports : (allClasses.any fun c => reported mode ((s.gates.get p).gate.get c) ((s.evaluated p).gate.get c)
      ((s.gates.get p).bound.get c) ((s.evaluated p).bound.get c)) = allClasses.any (State.reports mode s p) := by
    simp only [State.gate_evaluated, State.bound_evaluated]
    rfl
  have hdef : State.evaluate mode s p = if allClasses.any (State.reports mode s p) then
      (s.modGates p fun _ => s.evaluated p).raise p else s.modGates p fun _ => s.evaluated p := by
    rw [← hreports]
    rfl
  rw [hdef]
  cases allClasses.any (State.reports mode s p) <;> rfl

/-- A start opportunity stands after an evaluation when it stood before or the gate of some class is reported. -/
theorem State.opportunities_evaluate_iff (mode : ReportMode) (s : State) (p : Port) :
    (State.evaluate mode s p).opportunities.get p = true ↔
      s.opportunities.get p = true ∨ ∃ c, State.reports mode s p c = true := by
  have hany : allClasses.any (State.reports mode s p) = true ↔ ∃ c, State.reports mode s p c = true := by
    rw [List.any_eq_true]
    exact exists_congr fun c => and_iff_right (by fin_cases c <;> simp [allClasses])
  rw [State.evaluate_eq, ← hany]
  cases allClasses.any (State.reports mode s p) <;> simp

/-! ### Operations on every port -/

/-- An operation that works on each port by itself leaves of each port what it makes of that port alone. -/
theorem foldl_allPorts_view {α : Type} (view : State → Port → α) {f : State → Port → State}
    (hother : ∀ s p q, q ≠ p → view (f s p) q = view s q)
    (hself : ∀ s p q, q ≠ p → view (f (f s p) q) q = view (f s q) q) (s : State) (p : Port) :
    view (allPorts.foldl f s) p = view (f s p) p := by
  simp only [allPorts, List.foldl_cons, List.foldl_nil]
  cases p with
  | A => rw [hother _ .L .A (by decide), hother _ .B .A (by decide)]
  | B => rw [hother _ .L .B (by decide), hself _ .A .B (by decide)]
  | L => rw [hself _ .B .L (by decide), hself _ .A .L (by decide)]

theorem State.gates_closeAll (check : Bool) (s : State) (p : Port) :
    (State.closeAll check s p).gates = s.gates.set p { s.gates.get p with windows := [] } := by
  unfold State.closeAll
  cases check <;> simp [State.modGates]

theorem State.gates_closeEvery (s : State) (check : Bool) (p : Port) :
    (s.closeEvery check).gates.get p = { s.gates.get p with windows := [] } := by
  rw [State.closeEvery, foldl_allPorts_view fun s p => s.gates.get p]
  · rw [State.gates_closeAll, Trio.get_set_same]
  · intro s p q h
    rw [State.gates_closeAll, Trio.get_set_other _ _ h]
  · intro s p q h
    simp only [State.gates_closeAll, Trio.get_set_same, Trio.get_set_other _ _ h]

theorem State.gates_openWindows (s : State) (p : Port) (due : WindowEntry → Bool) : (s.openWindows p due).gates =
    s.gates.set p { s.gates.get p with windows := (s.gates.get p).windows ++ s.opened p due } := by
  rw [State.openWindows_eq]
  rfl

theorem State.gates_openEvery (s : State) (due : WindowEntry → Bool) (p : Port) : (s.openEvery due).gates.get p =
    { s.gates.get p with windows := (s.gates.get p).windows ++ s.opened p due } := by
  rw [State.openEvery, foldl_allPorts_view fun s p => s.gates.get p]
  · rw [State.gates_openWindows, Trio.get_set_same]
  · intro s p q h
    rw [State.gates_openWindows, Trio.get_set_other _ _ h]
  · intro s p q h
    have hgates : (s.openWindows p due).gates.get q = s.gates.get q := by
      rw [State.gates_openWindows, Trio.get_set_other _ _ h]
    have hopened : (s.openWindows p due).opened q due = s.opened q due :=
      State.opened_congr (by simp) (by simp) (by rw [hgates]) due
    simp only [State.gates_openWindows _ q, Trio.get_set_same, hgates, hopened]

/-- What an evaluation leaves of a port depends on the port's recorded gates, the timer and the bank. -/
theorem State.evaluated_congr {s t : State} {p : Port} (htimer : t.timer = s.timer) (hgen : t.gen = s.gen)
    (hgates : t.gates.get p = s.gates.get p) : t.evaluated p = s.evaluated p := by
  have hwin : (t.gates.get p).windows = (s.gates.get p).windows := by rw [hgates]
  simp only [State.evaluated, State.gateOpen_congr hgen hwin, State.guardBound_congr htimer hgen hwin, hgates]

theorem State.reports_congr {s t : State} {p : Port} (htimer : t.timer = s.timer) (hgen : t.gen = s.gen)
    (hgates : t.gates.get p = s.gates.get p) (mode : ReportMode) : State.reports mode t p = State.reports mode s p := by
  have hwin : (t.gates.get p).windows = (s.gates.get p).windows := by rw [hgates]
  funext c
  simp only [State.reports, State.gateOpen_congr hgen hwin, State.guardBound_congr htimer hgen hwin, hgates]

/-- The gates and the start opportunity of a port after the evaluation of every port are those after its own. -/
theorem State.evaluateEvery_port (s : State) (mode : ReportMode) (p : Port) :
    (s.evaluateEvery mode).gates.get p = s.evaluated p ∧
    (s.evaluateEvery mode).opportunities.get p = (State.evaluate mode s p).opportunities.get p := by
  have hother : ∀ (s : State) p q, q ≠ p → (State.evaluate mode s p).gates.get q = s.gates.get q ∧
      (State.evaluate mode s p).opportunities.get q = s.opportunities.get q := by
    intro s p q h
    rw [State.evaluate_eq]
    cases allClasses.any (State.reports mode s p) <;> simp [Trio.get_set_other _ _ h]
  have hview := foldl_allPorts_view (fun s p => (s.gates.get p, s.opportunities.get p)) (f := State.evaluate mode)
    (fun s p q h => Prod.ext (hother s p q h).1 (hother s p q h).2) (fun s p q h => ?_) s p
  · obtain ⟨hgates, hopps⟩ := Prod.mk.inj hview
    refine ⟨hgates.trans ?_, hopps⟩
    rw [State.evaluate_eq, Trio.get_set_same]
  · obtain ⟨hgates, hopps⟩ := hother s p q h
    have hreports := State.reports_congr (s := s) (t := State.evaluate mode s p) (by simp) (by simp) hgates mode
    have heval := State.evaluated_congr (s := s) (t := State.evaluate mode s p) (by simp) (by simp) hgates
    simp only [State.evaluate_eq mode _ q, heval, hreports, Trio.get_set_same]
    cases allClasses.any (State.reports mode s q) <;> simp [hopps]

/-! ### Openings and evaluations change gates and start opportunities alone -/

/-- `u` is `s` but for the gates and the start opportunities. -/
def State.GatesOnly (s u : State) : Prop := u = { s with gates := u.gates, opportunities := u.opportunities }

theorem State.GatesOnly.trans {s t u : State} (h : s.GatesOnly t) (h' : t.GatesOnly u) : s.GatesOnly u := by
  unfold State.GatesOnly at h h' ⊢
  calc u = { t with gates := u.gates, opportunities := u.opportunities } := h'
    _ = { s with gates := u.gates, opportunities := u.opportunities } := by rw [h]

theorem State.GatesOnly.foldl_allPorts {f : State → Port → State} (h : ∀ (s : State) p, s.GatesOnly (f s p))
    (s : State) : s.GatesOnly (allPorts.foldl f s) :=
  ((h s .A).trans (h _ .B)).trans (h _ .L)

theorem State.gatesOnly_openWindows (s : State) (p : Port) (due : WindowEntry → Bool) :
    s.GatesOnly (s.openWindows p due) := by
  rw [State.openWindows_eq]
  rfl

theorem State.gatesOnly_evaluate (mode : ReportMode) (s : State) (p : Port) :
    s.GatesOnly (State.evaluate mode s p) := by
  rw [State.evaluate_eq]
  rfl

theorem State.gatesOnly_openEvery (s : State) (due : WindowEntry → Bool) : s.GatesOnly (s.openEvery due) :=
  .foldl_allPorts (fun s p => s.gatesOnly_openWindows p due) s

theorem State.gatesOnly_evaluateEvery (s : State) (mode : ReportMode) : s.GatesOnly (s.evaluateEvery mode) :=
  .foldl_allPorts (State.gatesOnly_evaluate mode) s

/-- A withdrawal touches the gates alone. -/
theorem State.gatesOnly_withdraw (s : State) : s.GatesOnly (s.closeEvery false) :=
  .foldl_allPorts (f := State.closeAll false) (fun _ _ => rfl) s

/-! ### The gates that an evaluation leaves are those of the windows -/

/-- What stands recorded of a port is what its open windows give (R81, R82, R85). -/
def State.CurrentAt (s : State) (p : Port) : Prop :=
  ∀ c, (s.gates.get p).gate.get c = s.gateOpen p c ∧ (s.gates.get p).bound.get c = s.guardBound p c

theorem State.CurrentAt.congr {s t : State} {p : Port} (h : s.CurrentAt p) (htimer : t.timer = s.timer)
    (hgen : t.gen = s.gen) (hgates : t.gates.get p = s.gates.get p) : t.CurrentAt p := by
  intro c
  have hwin : (t.gates.get p).windows = (s.gates.get p).windows := by rw [hgates]
  rw [State.gateOpen_congr hgen hwin, State.guardBound_congr htimer hgen hwin, hgates]
  exact h c

theorem State.currentAt_of_evaluated {s u : State} {p : Port} (htimer : u.timer = s.timer) (hgen : u.gen = s.gen)
    (hgates : u.gates.get p = s.evaluated p) : u.CurrentAt p := by
  intro c
  have hwin : (u.gates.get p).windows = (s.gates.get p).windows := by rw [hgates, State.windows_evaluated]
  rw [State.gateOpen_congr hgen hwin, State.guardBound_congr htimer hgen hwin, hgates]
  exact ⟨s.gate_evaluated p c, s.bound_evaluated p c⟩

theorem State.evaluateEvery_currentAt (s : State) (mode : ReportMode) (p : Port) :
    (s.evaluateEvery mode).CurrentAt p :=
  State.currentAt_of_evaluated (s := s) (by simp) (by simp) (s.evaluateEvery_port mode p).1

theorem State.evaluate_currentAt (s : State) (mode : ReportMode) (p : Port) : (State.evaluate mode s p).CurrentAt p :=
  State.currentAt_of_evaluated (s := s) (by simp) (by simp) (by rw [State.evaluate_eq, Trio.get_set_same])

end Sys2Proof.Machine
end

section
/-! The events at the gate controller: the renewal of every port's windows at a cycle end and a step event (R90, R92),
the change between held and running at a correction (R84), and the commit that a step event leaves behind (R128). -/

namespace Sys2Proof.Machine

open Sys2Proof

/-! ### Renewal -/

/-- Every port's windows are removed, those chosen by `due` open, and every open gate is reported. -/
def State.renewal (s : State) (check : Bool) (due : WindowEntry → Bool) : State :=
  ((s.closeEvery check).openEvery due).evaluateEvery .everyOpen

theorem State.gatesCycleEnd_eq (old : UnlockedPolicy) (s : State) : State.gatesCycleEnd old s =
    s.renewal (decide (old = .runLocal ∨ s.timer.sync = .locked ∨ s.timer.sync = .holdover))
      fun w => decide (w.openOffset.toNat = 0) := by
  rw [← runningUnder_eq]
  rfl

theorem State.gatesStep_eq (s : State) : s.gatesStep =
    s.renewal (decide (s.base.unlocked = .runLocal ∨ s.timer.sync = .locked ∨ s.timer.sync = .holdover))
      (s.covers s.timer.position) := by
  rw [← runningUnder_eq]
  rfl

/-- With no window open the windows that open are the active ones that are due. -/
theorem State.opened_of_windows_nil {s : State} {p : Port} (h : (s.gates.get p).windows = [])
    (due : WindowEntry → Bool) : s.opened p due =
      if s.scheduleRuns then ((s.activeWindows p).filter fun w => due w.1).map s.openRecord else [] := by
  simp [State.opened, State.opening, State.isOpen, h]

/-- The windows that a renewal leaves are those that open once none is open. -/
theorem State.windows_renewal (s : State) (check : Bool) (due : WindowEntry → Bool) (p : Port) :
    ((s.renewal check due).gates.get p).windows = (s.closeEvery check).opened p due := by
  rw [State.renewal, (State.evaluateEvery_port _ _ p).1, State.windows_evaluated, State.gates_openEvery,
    State.gates_closeEvery]
  rfl

theorem State.windows_renewal_eq (s : State) (check : Bool) (due : WindowEntry → Bool) (p : Port) :
    ((s.renewal check due).gates.get p).windows =
      if s.scheduleRuns then ((s.activeWindows p).filter fun w => due w.1).map s.openRecord else [] := by
  have hclosed : ((s.closeEvery check).gates.get p).windows = [] := by rw [State.gates_closeEvery]
  have hruns : (s.closeEvery check).scheduleRuns = s.scheduleRuns := by simp [State.scheduleRuns]
  have hactive : (s.closeEvery check).activeWindows p = s.activeWindows p := by simp [State.activeWindows]
  have hrecord : (s.closeEvery check).openRecord = s.openRecord := by funext w; simp [State.openRecord]
  rw [State.windows_renewal, State.opened_of_windows_nil hclosed, hruns, hactive, hrecord]

/-- R90 and R92: a renewal does what they say with the windows that `d` finds due. -/
theorem State.renewed_renewal (s : State) (check : Bool) (d : WindowEntry → Bool) {due : WindowEntry × Nat → Prop}
    (hdue : ∀ w, due w ↔ d w.1 = true) : s.Renewed (s.renewal check d) check due := by
  have hclosed : ∀ p, ((s.closeEvery check).gates.get p).windows = [] := fun p => by rw [State.gates_closeEvery]
  refine ⟨(State.gatesOnly_openEvery _ d).trans (State.gatesOnly_evaluateEvery _ .everyOpen), fun p =>
    ⟨?_, State.evaluateEvery_currentAt _ .everyOpen p, ?_⟩⟩
  · rw [State.windows_renewal, ← State.opens_congr (t := s.closeEvery check) (by simp) (by simp)]
    exact State.opens_opened _ p d fun w => by simp [hdue, hclosed]
  · obtain ⟨hgates, hopps⟩ := State.evaluateEvery_port ((s.closeEvery check).openEvery d) .everyOpen p
    rw [State.renewal, hopps, State.opportunities_evaluate_iff, hgates]
    simp only [State.reports_everyOpen, State.gate_evaluated, State.openEvery_frame]
    rfl

/-- The windows that a cycle end opens, as a choice from the table (R77, R90). -/
theorem State.activeWindows_at_zero (s : State) (p : Port) :
    ((s.activeWindows p).filter fun w => decide (w.1.openOffset.toNat = 0)) =
      s.gen.active.windows.zipIdx.filter fun w =>
        w.1.valid && decide (w.1.port = p) && decide (w.1.openOffset = 0) &&
          (decide (w.1.indexMatch = 0xFF) || decide (w.1.indexMatch.toNat = s.timer.index)) &&
          decide (s.timer.round.toNat % w.1.modulus.toNat = w.1.residue.toNat) := by
  rw [State.activeWindows, List.filter_filter]
  refine List.filter_congr fun w _ => ?_
  have hzero : decide (w.1.openOffset.toNat = 0) = decide (w.1.openOffset = 0) := by simp [BitVec.toNat_eq]
  rw [hzero, Bool.and_comm, WindowEntry.activeIn, Bool.and_right_comm]
  simp only [Bool.and_assoc]

/-- The rest of a cycle end leaves what its gate controller made. -/
theorem State.settle_cycleEnd_keeps (s : State) :
    s.cycleEnd.settle.gates = (State.gatesCycleEnd s.base.unlocked s.cycleEndTimer).gates ∧
    s.cycleEnd.settle.timer = s.cycleEndTimer.timer ∧ s.cycleEnd.settle.gen = s.cycleEndTimer.gen := by
  simp [State.cycleEnd]

/-- Settles O29: the gates of a cycle end are a renewal, and the rest of the cycle end leaves them alone. -/
theorem cycleEndOpensTheNewCyclesWindows : Obligations.CycleEndOpensTheNewCyclesWindows := by
  refine ⟨fun old b => ?_, fun s p hpower hdue => ?_⟩
  · rw [State.gatesCycleEnd_eq]
    exact b.renewed_renewal _ _ fun w => by simp [BitVec.toNat_eq]
  · have hexec : exec .cycleEnd s = .next s.cycleEnd.settle :=
      congrArg Host.Outcome.next (if_pos ⟨hpower, decide_eq_true hdue⟩)
    obtain ⟨hgates, htimer, hgen⟩ := s.settle_cycleEnd_keeps
    refine ⟨s.cycleEnd.settle, hexec, ?_, ?_⟩
    · rw [hgates, State.gatesCycleEnd_eq, State.windows_renewal_eq, State.activeWindows_at_zero]
      simp only [State.base, htimer, hgen]
      exact if_congr (State.scheduleRuns_iff _) rfl rfl
    · have hcurrent : (State.gatesCycleEnd s.base.unlocked s.cycleEndTimer).CurrentAt p :=
        State.evaluateEvery_currentAt _ _ p
      exact hcurrent.congr (htimer.trans (by simp)) (hgen.trans (by simp))
        (by rw [hgates])

/-! ### Corrections and step events -/

/-- The covering windows of a port as the rules choose them (R84, R92); `t` is `s` with other windows open. -/
theorem State.mem_opened_covers_iff {s t : State} (htimer : t.timer = s.timer) (hgen : t.gen = s.gen) (p : Port)
    (pos : Nat) (o : OpenWindow) :
    o ∈ t.opened p (s.covers pos) ↔ s.Running ∧ (∃ w ∈ s.gen.active.windows.zipIdx,
      w.1.valid = true ∧ w.1.port = p ∧ w.1.activeIn s.timer.round s.timer.index = true ∧
      w.1.openOffset.toNat ≤ pos ∧ (pos < w.1.closeOffset.toNat ∨ s.timer.effLength ≤ w.1.closeOffset.toNat) ∧
      o = s.openRecord w) ∧ ∀ o' ∈ (t.gates.get p).windows, o'.index ≠ o.index := by
  have hrecord : t.openRecord = s.openRecord := by funext w; simp only [State.openRecord, htimer]
  rw [← State.running_congr htimer hgen, ← State.scheduleRuns_iff, State.opened]
  cases t.scheduleRuns
  · simp
  · simp only [if_true, List.mem_map, State.mem_opening_iff, State.covers_iff, State.Spans, true_and, htimer, hgen,
      hrecord]
    constructor
    · rintro ⟨w, ⟨hw, hvalid, hport, hactive, hclosed, hopen, hclose⟩, rfl⟩
      exact ⟨⟨w, hw, hvalid, hport, hactive, hopen, hclose, rfl⟩, hclosed⟩
    · rintro ⟨⟨w, hw, hvalid, hport, hactive, hopen, hclose, rfl⟩, hclosed⟩
      exact ⟨w, ⟨hw, hvalid, hport, hactive, hclosed, hopen, hclose⟩, rfl⟩

/-- The part stays held or stays running: nothing happens. -/
theorem State.gatesSyncEvent_of_same {s : State} {was : Bool} (h : was = true ↔ s.Running) :
    State.gatesSyncEvent was s = s := by
  rw [← State.scheduleRuns_iff, ← Bool.eq_iff_iff] at h
  subst h
  unfold State.gatesSyncEvent
  cases s.scheduleRuns <;> rfl

/-- From running to held: a withdrawal (R84). -/
theorem State.gatesSyncEvent_of_held {s : State} (h : ¬ s.Running) :
    State.gatesSyncEvent true s = (s.closeEvery false).evaluateEvery .changes := by
  unfold State.gatesSyncEvent
  rw [(s.scheduleRuns_eq_false_iff).mpr h]

/-- From held to running: the windows that cover the position open (R84). -/
theorem State.gatesSyncEvent_of_running {s : State} (h : s.Running) :
    State.gatesSyncEvent false s = (s.openEvery (s.covers s.positionNow)).evaluateEvery .changes := by
  unfold State.gatesSyncEvent
  rw [(s.scheduleRuns_iff).mpr h]

theorem State.windows_evaluateEvery (s : State) (mode : ReportMode) (p : Port) :
    ((s.evaluateEvery mode).gates.get p).windows = (s.gates.get p).windows := by
  rw [(s.evaluateEvery_port mode p).1, State.windows_evaluated]

/-- What an evaluation of every port reports of one of them, when the gates recorded before are those of `s`. -/
theorem State.opportunities_evaluateEvery_changes {s m : State} {p : Port} (hopps : m.opportunities = s.opportunities)
    (hgate : (m.gates.get p).gate = (s.gates.get p).gate) (hbound : (m.gates.get p).bound = (s.gates.get p).bound) :
    let u := m.evaluateEvery .changes
    u.opportunities.get p = true ↔ s.opportunities.get p = true ∨ ∃ c, (u.gates.get p).gate.get c = true ∧
      ((s.gates.get p).gate.get c = false ∨
        ∃ b, (s.gates.get p).bound.get c = some b ∧ ∀ b', (u.gates.get p).bound.get c = some b' → b < b') := by
  intro u
  obtain ⟨hgates, hraised⟩ := m.evaluateEvery_port .changes p
  rw [hraised, State.opportunities_evaluate_iff, hgates, hopps]
  simp only [State.reports_changes_iff, hgate, hbound, State.gate_evaluated, State.bound_evaluated]

/-- R84, whatever the part was and is. -/
theorem State.syncEvent_gatesSyncEvent (s : State) (was : Bool) :
    s.SyncEvent (State.gatesSyncEvent was s) (was = true) := by
  refine ⟨State.gatesSyncEvent_of_same, fun hchange => ?_⟩
  cases was with
  | true =>
    have hheld : ¬ s.Running := fun h => hchange (iff_of_true rfl h)
    rw [State.gatesSyncEvent_of_held hheld]
    refine ⟨s.gatesOnly_withdraw.trans (State.gatesOnly_evaluateEvery _ .changes), fun p =>
      ⟨fun _ => ?_, fun hruns => absurd hruns hheld, State.evaluateEvery_currentAt _ .changes p, ?_⟩⟩
    · rw [State.windows_evaluateEvery, State.gates_closeEvery]
    · exact State.opportunities_evaluateEvery_changes rfl (by rw [State.gates_closeEvery])
        (by rw [State.gates_closeEvery])
  | false =>
    have hruns : s.Running := by_contra fun h => hchange (iff_of_false Bool.false_ne_true h)
    rw [State.gatesSyncEvent_of_running hruns]
    refine ⟨(State.gatesOnly_openEvery s _).trans (State.gatesOnly_evaluateEvery _ .changes), fun p =>
      ⟨fun hheld => absurd hruns hheld, fun _ => ⟨s.opened p (s.covers s.positionNow), ?_, ?_⟩,
        State.evaluateEvery_currentAt _ .changes p, ?_⟩⟩
    · rw [State.windows_evaluateEvery, State.gates_openEvery]
    · exact s.opens_opened p _ fun w => by rw [State.covers_iff, and_comm]; rfl
    · exact State.opportunities_evaluateEvery_changes (by simp) (by rw [State.gates_openEvery])
        (by rw [State.gates_openEvery])

/-! ### The pending commit -/

theorem roundDistance_eq (target current : W16) :
    roundDistance target current = (target.toNat + 65536 - current.toNat) % 65536 := by
  unfold roundDistance
  bv_omega

/-- What a step event does to a commit at a round (R128). -/
theorem State.commitStep_of_atRound {s : State} {c : Commit} {r : W16} (hc : s.gen.commit = some c)
    (hr : c.target = .atRound r) : s.commitStep = if roundAhead r s.timer.round then s else
      State.completeOp { s with gen := { s.gen with commit := none } } c.requester c.tag c.ingress reqCommit c.slot
        .missedRound (some (.round r)) := by
  simp only [State.commitStep, hc, hr, State.failCommit, State.completeCommit]
  rfl

/-- Settles O34: the sync event and the renewal by their relations, then what they come to, and the commit by its
round. -/
theorem syncAndStepEventsRenewTheWindows : Obligations.SyncAndStepEventsRenewTheWindows := by
  intro s p c r runs opens ahead
  have hahead : roundDistance r s.timer.round = ahead := roundDistance_eq r s.timer.round
  refine ⟨s.syncEvent_gatesSyncEvent, ?_, fun was h => State.gatesSyncEvent_of_same h, fun hheld => ?_,
    fun hruns o => ?_, fun o => ?_, fun hno => ?_, fun hc hr h1 h2 => ?_, fun hc hr h => ?_⟩
  · rw [State.gatesStep_eq]
    exact s.renewed_renewal _ _ fun w => (s.covers_iff _ w).symm
  · rw [State.gatesSyncEvent_of_held hheld]
    have hnil : ((s.closeEvery false).gates.get p).windows = [] := by rw [State.gates_closeEvery]
    refine ⟨(State.windows_evaluateEvery _ _ p).trans hnil, fun k => ?_, fun k => ?_⟩
    · rw [(State.evaluateEvery_port _ _ p).1, State.gate_evaluated, State.gateOpen_of_windows_nil hnil]
      rfl
    · rw [(s.gatesOnly_withdraw.trans (State.gatesOnly_evaluateEvery _ .changes) : s.GatesOnly _)]
      rfl
  · rw [State.gatesSyncEvent_of_running hruns, State.windows_evaluateEvery, State.gates_openEvery, List.mem_append,
      State.mem_opened_covers_iff rfl rfl]
    exact or_congr Iff.rfl (and_iff_right hruns)
  · rw [State.gatesStep_eq, State.windows_renewal, State.mem_opened_covers_iff (by simp) (by simp),
      State.gates_closeEvery]
    exact and_congr Iff.rfl (and_iff_left fun o' ho' => absurd ho' List.not_mem_nil)
  · obtain hnone | ⟨hc, hnext⟩ := hno
    · simp only [State.commitStep, hnone]
    · simp only [State.commitStep, hc, hnext]
  · rw [State.commitStep_of_atRound hc hr, if_pos]
    simp only [roundAhead, hahead, h1, h2, decide_true, Bool.and_self]
  · rw [State.commitStep_of_atRound hc hr, if_neg]
    · rfl
    · simp only [roundAhead, hahead, Bool.and_eq_true, decide_eq_true_eq]
      omega

end Sys2Proof.Machine
end

section
/-! A window event (R79): its closes with their lateness checks (R88), its openings and its evaluation. -/

namespace Sys2Proof.Machine

open Sys2Proof

/-! ### Lateness checks -/

theorem State.egress_checkQueue (s : State) (p q : Port) (c d : Cls) : (State.checkQueue p s c).egress q d =
    if q = p ∧ d = c then (s.egress p c).filter fun d => !d.isLate s.timer.cycleCount else s.egress q d := by
  simp only [State.checkQueue]
  split <;> simp only [State.raise_views, foldl_takeLate_views, State.egress_setEgress]

theorem State.opportunities_checkQueue (s : State) (p : Port) (c : Cls) : (State.checkQueue p s c).opportunities =
    if (s.egress p c).head?.any (Desc.isLate s.timer.cycleCount) then s.opportunities.set p true
    else s.opportunities := by
  simp only [State.checkQueue]
  split <;> simp

/-- The queues after the lateness checks of some classes of a port (R88). -/
theorem State.egress_foldl_checkQueue (l : List Cls) (s : State) (p q : Port) (d : Cls) :
    (l.foldl (State.checkQueue p) s).egress q d =
      if q = p ∧ d ∈ l then (s.egress p d).filter fun d => !d.isLate s.timer.cycleCount else s.egress q d := by
  induction l generalizing s with
  | nil => simp
  | cons c l ih =>
    rw [List.foldl_cons, ih]
    simp only [State.egress_checkQueue, State.checkQueue_frame, List.mem_cons, true_and]
    by_cases hq : q = p
    · by_cases hc : d = c
      · subst hq hc
        simp [List.filter_filter]
      · simp [hc]
    · simp [hq]

/-- The removal of a head is a start opportunity (R97). -/
theorem State.opportunities_foldl_checkQueue {l : List Cls} (hl : l.Nodup) (s : State) (p q : Port) :
    (l.foldl (State.checkQueue p) s).opportunities.get q = true ↔ s.opportunities.get q = true ∨
      q = p ∧ ∃ c ∈ l, (s.egress p c).head?.any (Desc.isLate s.timer.cycleCount) = true := by
  induction l generalizing s with
  | nil => simp
  | cons c l ih =>
    obtain ⟨hc, hl⟩ := List.nodup_cons.mp hl
    have hrest : ∀ d ∈ l, (State.checkQueue p s c).egress p d = s.egress p d := by
      intro d hd
      have hne : d ≠ c := fun h => hc (h ▸ hd)
      rw [State.egress_checkQueue, if_neg fun h => hne h.2]
    have hfirst : (State.checkQueue p s c).opportunities.get q = true ↔ s.opportunities.get q = true ∨
        q = p ∧ (s.egress p c).head?.any (Desc.isLate s.timer.cycleCount) = true := by
      rw [State.opportunities_checkQueue]
      by_cases hq : q = p
      · subst hq
        split <;> simp [*]
      · split <;> simp [hq, Trio.get_set_other]
    have hlater : (∃ d ∈ l, ((State.checkQueue p s c).egress p d).head?.any (Desc.isLate s.timer.cycleCount) = true) ↔
        ∃ d ∈ l, (s.egress p d).head?.any (Desc.isLate s.timer.cycleCount) = true :=
      exists_congr fun d => and_congr_right fun hd => by rw [hrest d hd]
    have htimer : (State.checkQueue p s c).timer = s.timer := by simp
    rw [List.foldl_cons, ih hl, hfirst, htimer, hlater, List.exists_mem_cons_iff, and_or_left, or_assoc]

/-- Of the management state a lateness check changes the notice marks alone. -/
theorem State.mgmt_foldl_checkQueue (l : List Cls) (s : State) (p : Port) :
    (l.foldl (State.checkQueue p) s).mgmt =
      { s.mgmt with notices := (l.foldl (State.checkQueue p) s).mgmt.notices } := by
  obtain ⟨_, _, _, _, _, _, _, _, hrequests, hengine, hanswered, hcontrol, hconditions, hseq, hepoch, hdrain, _⟩ :=
    foldl_checkQueue_frame l s p
  exact Eq.mpr (Management.mk.injEq ..)
    ⟨hrequests, hengine, hanswered, hcontrol, hconditions, rfl, hseq, hepoch, hdrain⟩

/-! ### What closes and what opens -/

/-- The windows of a port that stay open at a window event (R79). -/
def State.staying (s : State) (p : Port) : List OpenWindow :=
  (s.gates.get p).windows.filter fun o => !decide (o.close = .at s.timer.position)

theorem State.mem_staying_iff (s : State) (p : Port) (o : OpenWindow) :
    o ∈ s.staying p ↔ o ∈ (s.gates.get p).windows ∧ ¬ o.close = .at s.timer.position := by
  simp [State.staying]

/-- Whether a window of the table opens at the position, once those that close there have closed (R77, R79). -/
def State.OpensNow (s : State) (p : Port) (w : WindowEntry × Nat) : Prop :=
  w.1.valid = true ∧ w.1.port = p ∧ w.1.activeIn s.timer.round s.timer.index = true ∧
    w.1.openOffset.toNat = s.timer.position ∧
    ¬ ∃ o ∈ (s.gates.get p).windows, o.index = w.2 ∧ ¬ o.close = .at s.timer.position

theorem State.mem_opening_now_iff {s t : State} {p : Port} (htimer : t.timer = s.timer) (hgen : t.gen = s.gen)
    (hwin : (t.gates.get p).windows = s.staying p) (w : WindowEntry × Nat) :
    w ∈ t.opening p (fun w => decide (w.openOffset.toNat = s.timer.position)) ↔
      w ∈ s.gen.active.windows.zipIdx ∧ s.OpensNow p w := by
  have hnone : (∀ o ∈ s.staying p, o.index ≠ w.2) ↔
      ¬ ∃ o ∈ (s.gates.get p).windows, o.index = w.2 ∧ ¬ o.close = .at s.timer.position := by
    simp only [State.mem_staying_iff, and_imp, not_exists, not_and]
    exact forall₂_congr fun o _ => ⟨fun h hi hc => h hc hi, fun h hc hi => h hi hc⟩
  rw [State.mem_opening_iff, htimer, hgen, hwin, hnone, decide_eq_true_iff, State.OpensNow, and_comm (b := _ = _)]

/-- A window event is due when a window closes or opens at the position (R79). -/
theorem State.windowEventDue_iff {s : State} (p : Port) (hpos : 0 < s.timer.position)
    (hlt : s.timer.position < s.timer.effLength) : s.windowEventDue p = true ↔
      (∃ o ∈ (s.gates.get p).windows, o.close = .at s.timer.position) ∨
      (s.Running ∧ ∃ w ∈ s.gen.active.windows.zipIdx, s.OpensNow p w) := by
  have hdue : s.windowEventDue p = true ↔ (∃ o ∈ (s.gates.get p).windows, o.close = .at s.timer.position) ∨
      (s.Running ∧ ∃ w, w ∈ s.opening p fun w => decide (w.openOffset.toNat = s.timer.position)) := by
    simp only [State.windowEventDue, hpos, hlt, decide_true, Bool.true_and, Bool.or_eq_true, Bool.and_eq_true,
      List.any_eq_true, decide_eq_true_eq, State.scheduleRuns_iff, Bool.not_eq_true',
      List.isEmpty_eq_false_iff_exists_mem]
  rw [hdue]
  by_cases hclose : ∃ o ∈ (s.gates.get p).windows, o.close = .at s.timer.position
  · simp only [hclose, true_or]
  · have hstay : (s.gates.get p).windows = s.staying p := by
      rw [State.staying, eq_comm, List.filter_eq_self]
      simpa using hclose
    simp only [State.mem_opening_now_iff rfl rfl hstay]

/-- The closes of a window event: the classes that a closing window names are checked in order (R88). -/
theorem State.windowCloses_eq (s : State) (p : Port) : s.windowCloses p =
    (allClasses.filter fun c => (s.gates.get p).windows.any fun o =>
      decide (o.close = .at s.timer.position) && o.names c).foldl (State.checkQueue p)
        { s with gates := s.gates.set p { s.gates.get p with windows := s.staying p } } := by
  simp only [State.windowCloses, State.latenessCheck, closingClasses, List.any_filter]
  rfl

/-- What a window event leaves: its closes, then other gates and start opportunities. -/
theorem State.gatesOnly_windowEvent (s : State) (p : Port) : (s.windowCloses p).GatesOnly (s.windowEvent p) :=
  (State.gatesOnly_openWindows _ p _).trans (State.gatesOnly_evaluate .changes _ p)

theorem State.gates_windowCloses (s : State) (p : Port) :
    (s.windowCloses p).gates = s.gates.set p { s.gates.get p with windows := s.staying p } := by
  rw [State.windowCloses_eq]
  simp

/-- The state that a window event evaluates: after the closes and the openings. -/
def State.beforeEvaluation (s : State) (p : Port) : State :=
  (s.windowCloses p).openWindows p fun w => decide (w.openOffset.toNat = s.timer.position)

theorem State.windowEvent_eq (s : State) (p : Port) :
    s.windowEvent p = State.evaluate .changes (s.beforeEvaluation p) p := by
  have hpos : (s.windowCloses p).timer = s.timer := by simp
  simp only [State.windowEvent, State.beforeEvaluation, hpos]

theorem State.gates_beforeEvaluation (s : State) (p : Port) : (s.beforeEvaluation p).gates = s.gates.set p
    { s.gates.get p with windows := s.staying p ++
        (s.windowCloses p).opened p fun w => decide (w.openOffset.toNat = s.timer.position) } := by
  rw [State.beforeEvaluation, State.gates_openWindows, State.gates_windowCloses, Trio.set_set, Trio.get_set_same]

theorem State.gates_windowEvent_same (s : State) (p : Port) :
    (s.windowEvent p).gates.get p = (s.beforeEvaluation p).evaluated p := by
  rw [State.windowEvent_eq, State.evaluate_eq, Trio.get_set_same]

theorem State.gates_windowEvent_other (s : State) {p q : Port} (h : q ≠ p) :
    (s.windowEvent p).gates.get q = s.gates.get q := by
  rw [State.windowEvent_eq, State.evaluate_eq, Trio.get_set_other _ _ h, State.gates_beforeEvaluation,
    Trio.get_set_other _ _ h]

/-- The windows of the port after a window event (R78, R79). -/
theorem State.mem_windows_windowEvent_iff (s : State) (p : Port) (o : OpenWindow) :
    o ∈ ((s.windowEvent p).gates.get p).windows ↔
      (o ∈ (s.gates.get p).windows ∧ ¬ o.close = .at s.timer.position) ∨
      (s.Running ∧ ∃ w ∈ s.gen.active.windows.zipIdx, s.OpensNow p w ∧ o = s.openRecord w) := by
  have hwin : ((s.windowCloses p).gates.get p).windows = s.staying p := by
    rw [State.gates_windowCloses, Trio.get_set_same]
  have hruns : (s.windowCloses p).scheduleRuns = s.scheduleRuns := by simp [State.scheduleRuns]
  have hrecord : (s.windowCloses p).openRecord = s.openRecord := by funext w; simp [State.openRecord]
  rw [State.gates_windowEvent_same, State.windows_evaluated, State.gates_beforeEvaluation, Trio.get_set_same,
    List.mem_append, State.mem_staying_iff, State.opened, hruns, hrecord, ← State.scheduleRuns_iff]
  refine or_congr Iff.rfl ?_
  cases s.scheduleRuns
  · simp
  · have hopening := State.mem_opening_now_iff (s := s) (t := s.windowCloses p) (by simp) (by simp) hwin
    simp only [if_true, List.mem_map, hopening, true_and, and_assoc, eq_comm (a := o)]

theorem State.opportunities_beforeEvaluation (s : State) (p q : Port) :
    (s.beforeEvaluation p).opportunities.get q = true ↔ s.opportunities.get q = true ∨
      q = p ∧ ∃ c ∈ allClasses.filter fun c => (s.gates.get p).windows.any fun o =>
        decide (o.close = .at s.timer.position) && o.names c,
        (s.egress p c).head?.any (Desc.isLate s.timer.cycleCount) = true := by
  have hnodup : allClasses.Nodup := by decide
  have hopen : (s.beforeEvaluation p).opportunities = (s.windowCloses p).opportunities := by
    simp [State.beforeEvaluation]
  rw [hopen, State.windowCloses_eq, State.opportunities_foldl_checkQueue (hnodup.filter _)]
  rfl

/-- The start opportunities of a window event: a late head that is removed (R97), and what the evaluation reports
(R82). -/
theorem State.opportunities_windowEvent_iff (s : State) (p : Port) : (s.windowEvent p).opportunities.get p = true ↔
    s.opportunities.get p = true ∨
    (∃ c ∈ allClasses.filter fun c => (s.gates.get p).windows.any fun o =>
        decide (o.close = .at s.timer.position) && o.names c,
      (s.egress p c).head?.any (Desc.isLate s.timer.cycleCount) = true) ∨
    ∃ c, ((s.windowEvent p).gates.get p).gate.get c = true ∧ ((s.gates.get p).gate.get c = false ∨
      ∃ b, (s.gates.get p).bound.get c = some b ∧
        ∀ b', ((s.windowEvent p).gates.get p).bound.get c = some b' → b < b') := by
  rw [State.gates_windowEvent_same, State.windowEvent_eq, State.opportunities_evaluate_iff,
    State.opportunities_beforeEvaluation]
  simp only [true_and, or_assoc, State.reports_changes_iff, State.gate_evaluated, State.bound_evaluated,
    State.gates_beforeEvaluation, Trio.get_set_same]

theorem State.opportunities_windowEvent_other (s : State) {p q : Port} (h : q ≠ p) :
    (s.windowEvent p).opportunities.get q = s.opportunities.get q := by
  have hbefore : (s.beforeEvaluation p).opportunities.get q = s.opportunities.get q := by
    rw [Bool.eq_iff_iff, State.opportunities_beforeEvaluation]
    simp [h]
  rw [State.windowEvent_eq, State.evaluate_eq, ← hbefore]
  split <;> simp [Trio.get_set_other _ _ h]

theorem State.egress_windowEvent (s : State) (p q : Port) (c : Cls) : (s.windowEvent p).egress q c =
    if q = p ∧ ∃ o ∈ (s.gates.get p).windows, o.close = .at s.timer.position ∧ o.names c = true then
      (s.egress p c).filter fun d => !d.isLate s.timer.cycleCount
    else s.egress q c := by
  have hclosed : (s.windowEvent p).egress q c = (s.windowCloses p).egress q c := by
    rw [State.gatesOnly_windowEvent s p]
    rfl
  have hall : c ∈ allClasses := by fin_cases c <;> decide
  rw [hclosed, State.windowCloses_eq, State.egress_foldl_checkQueue]
  simp only [List.mem_filter, hall, true_and, List.any_eq_true, Bool.and_eq_true, decide_eq_true_eq]
  rfl

/-- Settles O30: when the event is due, then its outcome part by part. -/
theorem windowEventClosesThenOpens : Obligations.WindowEventClosesThenOpens := by
  intro s p hpower hpos hlt closing runs opens
  have hdue := State.windowEventDue_iff p hpos hlt
  refine ⟨fun hclose hopen => ?_, fun h => ?_⟩
  · have hnot : ¬ s.windowEventDue p = true := by
      rw [hdue]
      rintro (⟨o, ho, hc⟩ | ⟨hruns, w, hw, hnow⟩)
      · exact hclose o ho hc
      · exact hopen hruns w hw hnow
    exact congrArg Host.Outcome.next (if_neg fun h => hnot h.2)
  · have hexec : exec (.windowEvent p) s = .next (s.windowEvent p).settle :=
      congrArg Host.Outcome.next (if_pos ⟨hpower, hdue.mpr h⟩)
    intro named left
    have hcloses : s.windowCloses p = named.foldl (State.checkQueue p) left := s.windowCloses_eq p
    refine ⟨s.windowEvent p, hexec, ?_, s.mem_windows_windowEvent_iff p, ?_, s.opportunities_windowEvent_iff p,
      fun q hq => s.opportunities_windowEvent_other hq, fun c => ?_,
      fun q hq => ⟨s.gates_windowEvent_other hq, fun c => ?_⟩, fun q => ?_, ?_, ?_, ?_, ?_⟩
    · rw [← hcloses]
      exact s.gatesOnly_windowEvent p
    · rw [State.windowEvent_eq]
      exact State.evaluate_currentAt _ .changes p
    · rw [State.egress_windowEvent]
      simp only [true_and]
      rfl
    · rw [State.egress_windowEvent, if_neg fun h => hq h.1]
    · simp
    · simp
    · simp
    · simp
    · rw [State.gatesOnly_windowEvent s p, hcloses]
      exact State.mgmt_foldl_checkQueue named left p

end Sys2Proof.Machine
end

section
/-! RETRIEVE RETAINED and FLUSH RETAINED: the bytes of a record's header (12.5), the data of a retrieve (R113), and the
frame store after a flush (R116). -/

namespace Sys2Proof.Machine

open Sys2Proof

/-! ### Bytes of joined lists -/

/-- A byte read past the first of two joined lists is a byte of the second. -/
theorem byteAt_append_right (l r : List Byte) (i : Nat) : byteAt (l ++ r) (l.length + i) = byteAt r i := by
  simp [byteAt, List.getElem?_append_right]

theorem byteAt_readBytes (m : List Host.Cell) (a : Nat) {i n : Nat} (h : i < n) :
    byteAt (readBytes m a n) i = readByte m (a + i) := by
  simp [byteAt, readBytes, h]

/-! ### The record header (12.5) -/

@[simp] theorem recordHeader_length (r : Record) : (recordHeader r).length = 10 := by
  simp [recordHeader]

/-- The reason stands in the upper four bits of the first byte, the class in the lower four. -/
theorem reasonCode_shift_or_cls (reason : Reason) (c : Cls) :
    ((reasonCode reason <<< 4) ||| BitVec.ofNat 8 c.val).toNat = 16 * (reasonCode reason).toNat + c.val := by
  revert c
  cases reason <;> decide

/-- The ingress port stands in the upper four bits of its byte, the intended egress port, or Fh, in the lower four. -/
theorem portCode_shift_or_egress (p : Port) (e : Option Port) :
    ((portCode p <<< 4) ||| (match e with | none => 0x0F | some q => portCode q)).toNat =
      16 * portBit p + (match e with | none => 15 | some q => portBit q) := by
  rcases e with - | q
  · cases p <;> rfl
  · cases p <;> cases q <;> rfl

theorem maxWaitByte_eq (w : Option Nat) :
    maxWaitByte w = (match w with | none => 0xFF | some n => BitVec.ofNat 8 n) := by
  cases w <;> rfl

/-- A record header, and whatever follows it, field by field (12.5). -/
theorem recordHeader_fields (r : Record) (rest : List Byte) :
    (byteAt (recordHeader r ++ rest) 0).toNat = 16 * (reasonCode r.reason).toNat + r.cls.val ∧
    byteAt (recordHeader r ++ rest) 1 = r.stream ∧
    (byteAt (recordHeader r ++ rest) 2).toNat =
      16 * portBit r.ingress + (match r.egress with | none => 15 | some p => portBit p) ∧
    byteAt (recordHeader r ++ rest) 3 = (match r.maxWait with | none => 0xFF | some w => BitVec.ofNat 8 w) ∧
    numAt (recordHeader r ++ rest) 4 2 = r.stamp.round.toNat ∧
    (byteAt (recordHeader r ++ rest) 6).toNat = r.stamp.index % 256 ∧
    numAt (recordHeader r ++ rest) 7 3 = r.stamp.position % 16777216 := by
  refine ⟨reasonCode_shift_or_cls _ _, rfl, portCode_shift_or_egress _ _, maxWaitByte_eq _, ?_, ?_, ?_⟩
  · calc numAt (recordHeader r ++ rest) 4 2
        = r.stamp.round.toNat % 256 ^ 2 := numAt_beBytes ((recordHeader r).take 4)
          (BitVec.ofNat 8 r.stamp.index :: (beBytes 3 r.stamp.position ++ rest)) 2 _
      _ = r.stamp.round.toNat := Nat.mod_eq_of_lt r.stamp.round.isLt
  · exact BitVec.toNat_ofNat ..
  · exact numAt_beBytes ((recordHeader r).take 7) rest 3 r.stamp.position

/-! ### RETRIEVE RETAINED (R113) -/

/-- The data of a RETRIEVE RETAINED reply: the record's header and the first bytes of its frame, at most 472. -/
def State.retrieveData (s : State) (r : Record) : List Byte :=
  recordHeader r ++ s.slotBytes r.slot (min r.length 472)

theorem State.retrieveData_length (s : State) (r : Record) :
    (s.retrieveData r).length = 10 + min r.length 472 := by
  simp [State.retrieveData, State.slotBytes]

/-- After the header stand the frame's bytes as the slot holds them. -/
theorem State.byteAt_retrieveData_frame (s : State) (r : Record) {i : Nat} (hi : i < min r.length 472) :
    byteAt (s.retrieveData r) (10 + i) = readByte s.store.mem (512 * r.slot + i) := by
  have hskip := byteAt_append_right (recordHeader r) (s.slotBytes r.slot (min r.length 472)) i
  rw [recordHeader_length] at hskip
  rw [State.retrieveData, hskip]
  exact byteAt_readBytes s.store.mem (slotBase r.slot) hi

theorem State.runRetrieve_nil {s : State} (req : Request) (h : s.retention.records = []) :
    State.runRetrieve req s = s.answer req .empty 0 [] := by
  simp [State.runRetrieve, h, State.answerBare]

theorem State.runRetrieve_cons {s : State} (req : Request) {r : Record} {rest : List Record}
    (h : s.retention.records = r :: rest) : State.runRetrieve req s =
      ((s.setRecords rest).releaseSlot r.slot).answer req .done (r.length - 472) (s.retrieveData r) := by
  simp [State.runRetrieve, h, State.retrieveData, Config.retrieveBytes]

/-- Settles O44: the row's answer on an empty and on a non-empty list, with the bytes of its data. -/
theorem retrieveReturnsTheHeadRecord : Obligations.RetrieveReturnsTheHeadRecord := by
  intro s s1 req hruns hkind
  have hexec : exec .retrieveRetained s = .next (State.runRequest (isKind 0x0D) State.runRetrieve s) := rfl
  have hmine : isKind 0x0D req.kind = true := decide_eq_true hkind
  refine ⟨fun hnil => ?_, fun r rest hcons => ⟨s1.retrieveData r, ?_, s1.retrieveData_length r, ?_⟩⟩
  · exact answers_of_body hexec hruns hmine (State.runRetrieve_nil req hnil) (by simp)
  · refine answers_of_body hexec hruns hmine (State.runRetrieve_cons req hcons) ?_
    rw [State.retrieveData_length]
    omega
  · obtain ⟨hreason, hstream, hports, hwait, hround, hindex, hposition⟩ :=
      recordHeader_fields r (s1.slotBytes r.slot (min r.length 472))
    exact ⟨hreason, hstream, hports, hwait, hround, hindex, hposition,
      fun i hi => s1.byteAt_retrieveData_frame r hi⟩

/-! ### FLUSH RETAINED (R116) -/

/-- Releases one after another change the frame store alone. -/
theorem State.releaseAll_eq {α : Type} (slot : α → Nat) (l : List α) (s : State) :
    l.foldl (fun s x => s.releaseSlot (slot x)) s =
      { s with store := (l.foldl (fun s x => s.releaseSlot (slot x)) s).store } := by
  induction l generalizing s with
  | nil => rfl
  | cons x l ih =>
    rw [List.foldl_cons, ih, State.releaseSlot_eq]

/-- A flush empties the list and changes, beside it, the frame store alone. -/
theorem State.flushRecords_eq (s : State) : s.flushRecords =
    { s with retention := { s.retention with records := [] }, store := s.flushRecords.store } :=
  State.releaseAll_eq Record.slot s.retention.records (s.setRecords [])

/-- A flush releases the records' slots from head to tail (R63). -/
theorem State.flushRecords_released (s : State) :
    s.Released s.flushRecords (s.retention.records.map Record.slot) :=
  (State.releaseAll_released Record.slot s.retention.records (s.setRecords [])).of_store rfl rfl

/-- Settles O46: the state before the reply is the flushed one, `State.flushRecords`. -/
theorem flushEmptiesTheRetentionQueue : Obligations.FlushEmptiesTheRetentionQueue := by
  intro s s1 req hruns hkind
  have hexec : exec .flushRetained s = .next (State.runRequest (isKind 0x0F) State.runFlush s) := rfl
  have hmine : isKind 0x0F req.kind = true := decide_eq_true hkind
  have hbody : State.runFlush req s1 =
      s1.flushRecords.answer req .done 0 [BitVec.ofNat 8 s1.retention.records.length] := rfl
  exact ⟨s1.flushRecords, answers_of_body hexec hruns hmine hbody (by simp), s1.flushRecords_eq,
    s1.flushRecords_released⟩

end Sys2Proof.Machine
end

section
/-! What a command can make of a state, said once (95_what_each_step_holds): every command leaves the state as it is, or
makes of it what `Effect` lists. The safety statements below go through this inversion. -/

namespace Sys2Proof.Machine

open Sys2Proof

/-! ### The rows that run a request -/

/-- The kind codes that a request row chooses, and what it runs on a request of one of them (chapter 10). -/
inductive RequestRow : Instr → (Byte → Bool) → (Request → State → State) → Prop
  | unknown : RequestRow .unknownRequestKind (fun b => !isRequestKind b) (fun req s => s.answerBare req .badRequest)
  | identify : RequestRow .identify (isKind 0x01) (fun req s => s.answer req .done 0 s.identifyData)
  | readStatus : RequestRow .readStatus (isKind 0x02) (fun req s => s.answer req .done 0 s.statusData)
  | readStreamCounters : RequestRow .readStreamCounters (isKind 0x03) State.runReadStreamCounters
  | readPortCounters : RequestRow .readPortCounters (isKind 0x04) State.runReadPortCounters
  | readEntries : RequestRow .readEntries (isKind 0x05) State.runReadEntries
  | stageStreamEntries : RequestRow .stageStreamEntries (isKind 0x06) State.runStageStreams
  | stageWindowEntries : RequestRow .stageWindowEntries (isKind 0x07) State.runStageWindows
  | stageBaseRecord : RequestRow .stageBaseRecord (isKind 0x08) State.runStageBase
  | copyActiveToShadow : RequestRow .copyActiveToShadow (isKind 0x09) State.runCopy
  | commit : RequestRow .commit (isKind 0x0A) State.runCommit
  | cancelCommit : RequestRow .cancelCommit (isKind 0x0B) State.runCancel
  | portControl : RequestRow .portControl (isKind 0x0C) State.runPortControl
  | retrieveRetained : RequestRow .retrieveRetained (isKind 0x0D) State.runRetrieve
  | requeueRetained : RequestRow .requeueRetained (isKind 0x0E) State.runRequeue
  | flushRetained : RequestRow .flushRetained (isKind 0x0F) State.runFlush
  | clearCounters : RequestRow .clearCounters (isKind 0x10) State.runClear
  | queueReset : RequestRow .queueReset (isKind 0x11) State.runQueueReset
  | deviceReset : RequestRow .deviceReset (isKind 0x12) State.runDeviceReset

/-- The step of a request row is `State.runRequest` with the row's kinds and body. -/
theorem RequestRow.exec_eq {c : Instr} {mine : Byte → Bool} {body : Request → State → State}
    (h : RequestRow c mine body) (s : State) : exec c s = .next (State.runRequest mine body s) := by
  cases h <;> rfl

/-- A request row is neither a power command nor a reset. -/
theorem RequestRow.not_power {c : Instr} {mine : Byte → Bool} {body : Request → State → State}
    (h : RequestRow c mine body) : c.isPowerCommand = false ∧ c.isReset = false := by
  cases h <;> exact ⟨rfl, rfl⟩

/-- A request row is no event of a port. -/
theorem RequestRow.not_event {c : Instr} {mine : Byte → Bool} {body : Request → State → State}
    (h : RequestRow c mine body) :
    ¬ ∃ p k, c = .receptionStart p ∨ c = .kindFieldReceived p k ∨ c = .windowEvent p := by
  cases h <;> rintro ⟨p, k, h | h | h⟩ <;> cases h

/-! ### What a command makes of a state -/

/-- What a command makes of a state: nothing, where it cannot come about as the part stands (notes/assumptions/5.md), or
the change its row gives. -/
inductive Effect (s : State) : Instr → State → Prop
  | unchanged (c : Instr) : Effect s c s
  | powerOnEvent (v : Nat) : s.power = .hold false → Effect s (.powerOn v) (s.powerOnEvent v)
  | releasedLow (v : Nat) : s.power = .hold true → Effect s (.powerOn v) (s.setPower .awaitRise)
  | haltLow : s.power = .running → Effect s .resetNAssertion (s.halt.setPower .resetLow)
  | holdLow (low : Bool) : s.power = .hold low → Effect s .resetNAssertion (s.setPower (.hold true))
  | pinReset (v : Nat) : s.power = .resetLow → Effect s (.pinReset v) (s.pinResetEvent v)
  | pinPowerOn (v : Nat) : s.power = .awaitRise → Effect s (.pinReset v) (s.powerOnEvent v)
  | holdHigh (v : Nat) (low : Bool) : s.power = .hold low → Effect s (.pinReset v) (s.setPower (.hold false))
  | haltHold : s.power = .running → Effect s .powerOnHold (s.halt.setPower (.hold false))
  | holdAgain : s.power = .resetLow ∨ s.power = .awaitRise → Effect s .powerOnHold (s.setPower (.hold true))
  | deviceReset : s.power = .running → s.drainComplete = true → Effect s .deviceResetEffect s.deviceResetEvent
  | receptionStart (p : Port) : s.mayReceive p = true → Effect s (.receptionStart p) (s.startReception p)
  | kindField (p : Port) (k : Byte) : s.power = .running → Effect s (.kindFieldReceived p k) (s.receiveKind p k)
  | receptionEnd (p : Port) (bytes : List Byte) :
      s.power = .running → Effect s (.receptionEnd p bytes) (s.endReception p bytes).settle
  | linkCheck (p : Port) (good : Bool) :
      s.power = .running → s.linkCheckDue p = true → Effect s (.linkCheck p good) (s.linkCheck p good).settle
  | cycleEnd : s.power = .running → s.cycleEndDue = true → Effect s .cycleEnd s.cycleEnd.settle
  | windowEvent (p : Port) :
      s.power = .running → s.windowEventDue p = true → Effect s (.windowEvent p) (s.windowEvent p).settle
  | transmissionEnd (p : Port) :
      s.power = .running → s.transmissionDue p = true → Effect s (.transmissionEnd p) (s.endTransmission p).settle
  | request {c : Instr} {mine : Byte → Bool} {body : Request → State → State} (req : Request) (held : Bool) :
      RequestRow c mine body → s.power = .running → s.take.mgmt.engine = .executing req held → mine req.kind = true →
      Effect s c (State.runTaken body req held s.take).settle

theorem effect_of_runRequest {c : Instr} {mine : Byte → Bool} {body : Request → State → State}
    (h : RequestRow c mine body) (s : State) : Effect s c (State.runRequest mine body s) := by
  unfold State.runRequest
  split
  next hp =>
    split
    next req held he =>
      split
      next hm => exact .request req held h hp he hm
      next => exact .unchanged c
    all_goals exact .unchanged c
  next => exact .unchanged c

/-- Every command answers, with one of the listed effects. -/
theorem exec_effect (c : Instr) (s : State) : ∃ t, exec c s = .next t ∧ Effect s c t := by
  have guarded : ∀ {b : Prop} [Decidable b] {t : State}, (b → Effect s c t) → Effect s c (if b then t else s) := by
    intro b _ t h
    split
    next hb => exact h hb
    next => exact .unchanged c
  have row : ∀ {mine body}, RequestRow c mine body → ∃ t, exec c s = .next t ∧ Effect s c t :=
    fun h => ⟨_, h.exec_eq s, effect_of_runRequest h s⟩
  cases c with
  | powerOn v =>
    refine ⟨_, rfl, ?_⟩
    split
    next hp => exact .powerOnEvent v hp
    next hp => exact .releasedLow v hp
    all_goals exact .unchanged _
  | resetNAssertion =>
    refine ⟨_, rfl, ?_⟩
    split
    next hp => exact .haltLow hp
    next low hp => exact .holdLow low hp
    all_goals exact .unchanged _
  | pinReset v =>
    refine ⟨_, rfl, ?_⟩
    split
    next hp => exact .pinReset v hp
    next hp => exact .pinPowerOn v hp
    next low hp => exact .holdHigh v low hp
    next => exact .unchanged _
  | powerOnHold =>
    refine ⟨_, rfl, ?_⟩
    split
    next hp => exact .haltHold hp
    next hp => exact .holdAgain (.inl hp)
    next hp => exact .holdAgain (.inr hp)
    next => exact .unchanged _
  | receptionStart p => exact ⟨_, rfl, guarded (.receptionStart p)⟩
  | kindFieldReceived p k => exact ⟨_, rfl, guarded (.kindField p k)⟩
  | receptionEnd p bytes => exact ⟨_, rfl, guarded (.receptionEnd p bytes)⟩
  | linkCheck p good => exact ⟨_, rfl, guarded fun h => .linkCheck p good h.1 h.2⟩
  | cycleEnd => exact ⟨_, rfl, guarded fun h => .cycleEnd h.1 h.2⟩
  | windowEvent p => exact ⟨_, rfl, guarded fun h => .windowEvent p h.1 h.2⟩
  | transmissionEnd p => exact ⟨_, rfl, guarded fun h => .transmissionEnd p h.1 h.2⟩
  | deviceResetEffect => exact ⟨_, rfl, guarded fun h => .deviceReset h.1 h.2⟩
  | unknownRequestKind => exact row .unknown
  | identify => exact row .identify
  | readStatus => exact row .readStatus
  | readStreamCounters => exact row .readStreamCounters
  | readPortCounters => exact row .readPortCounters
  | readEntries => exact row .readEntries
  | stageStreamEntries => exact row .stageStreamEntries
  | stageWindowEntries => exact row .stageWindowEntries
  | stageBaseRecord => exact row .stageBaseRecord
  | copyActiveToShadow => exact row .copyActiveToShadow
  | commit => exact row .commit
  | cancelCommit => exact row .cancelCommit
  | portControl => exact row .portControl
  | retrieveRetained => exact row .retrieveRetained
  | requeueRetained => exact row .requeueRetained
  | flushRetained => exact row .flushRetained
  | clearCounters => exact row .clearCounters
  | queueReset => exact row .queueReset
  | deviceReset => exact row .deviceReset

theorem effect_of_exec {c : Instr} {s t : State} (h : exec c s = .next t) : Effect s c t := by
  obtain ⟨u, hu, he⟩ := exec_effect c s
  obtain rfl : u = t := by simpa [hu] using h
  exact he

/-- A step is the execution of the front command, or the idle step of an empty queue. -/
theorem step_cases {s t : State} (h : step s = .next t) :
    (s.pending = [] ∧ t = s.idleStep) ∨ ∃ c rest, s.pending = c :: rest ∧ exec c { s with pending := rest } = .next t := by
  unfold step at h
  split at h
  next hp => exact .inl ⟨hp, by simpa using h.symm⟩
  next c rest hp => exact .inr ⟨c, rest, hp, h⟩

end Sys2Proof.Machine
end

section
/-! What a request can make of a state, said once: it changes the part as `Prepared` lists and is answered, or ends in
one of the other ways that `Reaction` lists (R124, R139, R142, R145, R163). -/

namespace Sys2Proof.Machine

open Sys2Proof

/-! ### What is done before an answer -/

/-- What the execution of a request does to the part before its answer (chapter 10). -/
inductive Prepared (s : State) : State → Prop
  | nothing : Prepared s s
  | clearedStreams (first count : Nat) : Prepared s (s.clearStreams first count)
  | clearedPorts : Prepared s s.clearPorts
  | clearedAll : Prepared s s.clearAllStreams
  | clearedBoth : Prepared s s.clearAllStreams.clearPorts
  | shadow (b : Bank) : s.gen.commit = none → Prepared s (s.setShadow b)
  | cancelled : Prepared s (s.completeCommit .cancelled none)
  | portDone (p : Port) (op : PortOp) {t : State} : s.controlPort p op = .done t → Prepared s t
  | retrieved (r : Record) (rest : List Record) :
      s.retention.records = r :: rest → Prepared s ((s.setRecords rest).releaseSlot r.slot)
  | requeued (n : Nat) : Prepared s (State.requeue n 0 s).1
  | flushed : Prepared s s.flushRecords
  | discarded : Prepared s s.discardQueues.flushRecords.emptyHolders

/-- What a taken request makes of the state. -/
inductive Reaction (s : State) (req : Request) : State → Prop
  | answered {t : State} (st : Status) (n : Nat) (d : List Byte) :
      Prepared s t → Reaction s req (t.answer req st n d)
  | condition : Reaction s req (s.deliverCondition req)
  | committed (target : Target) :
      s.gen.commit = none → s.gen.shadow.validate = none → Reaction s req (s.acceptCommit req target)
  | portWaits (p : Port) (op : PortOp) {t : State} : s.mgmt.portControl.get p = none →
      s.controlPort p op = .waits t → Reaction s req (t.waitPortControl req p op (req.early && s.earlyGranted))
  | reset : Reaction s req (s.runDeviceReset req)

/-- An answer to a request that changes nothing before it. -/
theorem Reaction.answer (s : State) (req : Request) (st : Status) (n : Nat) (d : List Byte) :
    Reaction s req (s.answer req st n d) := .answered st n d .nothing

theorem Reaction.answerBare (s : State) (req : Request) (st : Status) : Reaction s req (s.answerBare req st) :=
  .answer s req st 0 []

theorem Reaction.ite {s : State} {req : Request} {b : Prop} [Decidable b] {t u : State} (ht : b → Reaction s req t)
    (hu : ¬ b → Reaction s req u) : Reaction s req (if b then t else u) := by
  split
  next h => exact ht h
  next h => exact hu h

/-! ### The bodies -/

theorem Reaction.readStreamCounters (s : State) (req : Request) : Reaction s req (State.runReadStreamCounters req s) := by
  unfold State.runReadStreamCounters
  extract_lets first count flag
  refine .ite (fun _ => .answerBare ..) fun _ => .ite (fun _ => .answerBare ..) fun _ =>
    .ite (fun _ => .answerBare ..) fun _ => .answered _ _ _ ?_
  split
  · exact .clearedStreams first count
  · exact .nothing

theorem Reaction.readPortCounters (s : State) (req : Request) : Reaction s req (State.runReadPortCounters req s) := by
  unfold State.runReadPortCounters
  extract_lets flag
  refine .ite (fun _ => .answerBare ..) fun _ => .answered _ _ _ ?_
  split
  · exact .clearedPorts
  · exact .nothing

theorem Reaction.readEntries (s : State) (req : Request) : Reaction s req (State.runReadEntries req s) := by
  unfold State.runReadEntries
  extract_lets bankCode table first count bank
  exact .ite (fun _ => .answerBare ..) fun _ =>
    .ite (fun _ => .ite (fun _ => .answer ..) fun _ => .answerBare ..) fun _ =>
    .ite (fun _ => .ite (fun _ => .answer ..) fun _ => .answerBare ..) fun _ =>
    .ite (fun _ => .ite (fun _ => .answer ..) fun _ => .answerBare ..) fun _ => .answerBare ..

theorem Reaction.stageStreams (s : State) (req : Request) : Reaction s req (State.runStageStreams req s) := by
  unfold State.runStageStreams
  extract_lets first count
  refine .ite (fun _ => .answerBare ..) fun _ => .ite (fun _ => .answerBare ..) fun hc => ?_
  split
  · exact .answer ..
  · exact .answered _ _ _ (.shadow _ (by simpa using hc))

theorem Reaction.stageWindows (s : State) (req : Request) : Reaction s req (State.runStageWindows req s) := by
  unfold State.runStageWindows
  extract_lets first count
  refine .ite (fun _ => .answerBare ..) fun _ => .ite (fun _ => .answerBare ..) fun hc => ?_
  split
  · exact .answer ..
  · exact .answered _ _ _ (.shadow _ (by simpa using hc))

theorem Reaction.stageBase (s : State) (req : Request) : Reaction s req (State.runStageBase req s) := by
  unfold State.runStageBase
  extract_lets image
  exact .ite (fun _ => .answerBare ..) fun hc =>
    .ite (fun _ => .answered _ _ _ (.shadow _ (by simpa using hc))) fun _ => .answerBare ..

theorem Reaction.copy (s : State) (req : Request) : Reaction s req (State.runCopy req s) := by
  unfold State.runCopy
  exact .ite (fun _ => .answerBare ..) fun hc => .answered _ _ _ (.shadow _ (by simpa using hc))

theorem Reaction.decideCommit (s : State) (req : Request) (target : Target) :
    Reaction s req (s.decideCommit req target) := by
  unfold State.decideCommit
  refine .ite (fun _ => .answerBare ..) fun hc => .ite (fun _ => .answerBare ..) fun _ => ?_
  split
  next => exact .answer ..
  next hv => exact .committed target (by simpa using hc) hv

theorem Reaction.commit (s : State) (req : Request) : Reaction s req (State.runCommit req s) := by
  unfold State.runCommit
  extract_lets kind
  exact .ite (fun _ => .decideCommit ..) fun _ => .ite (fun _ => .decideCommit ..) fun _ => .answerBare ..

theorem Reaction.cancel (s : State) (req : Request) : Reaction s req (State.runCancel req s) := by
  unfold State.runCancel
  split
  · exact .answerBare ..
  · exact .answered _ _ _ .cancelled

theorem Reaction.portControl (s : State) (req : Request) : Reaction s req (State.runPortControl req s) := by
  unfold State.runPortControl
  split
  next p op _ _ =>
    unfold State.decidePortControl
    refine .ite (fun _ => .answerBare ..) fun hc => ?_
    split
    next h => exact .answered _ _ _ (.portDone p op h)
    next h => exact .portWaits p op (by simpa using hc) h
    next => exact .answerBare ..
  next => exact .answerBare ..

theorem Reaction.retrieve (s : State) (req : Request) : Reaction s req (State.runRetrieve req s) := by
  unfold State.runRetrieve
  split
  next => exact .answerBare ..
  next r rest h => exact .answered _ _ _ (.retrieved r rest h)

theorem Reaction.requeue (s : State) (req : Request) : Reaction s req (State.runRequeue req s) := by
  unfold State.runRequeue
  extract_lets n r
  exact .ite (fun _ => .answerBare ..) fun _ => .answered _ _ _ (.requeued n)

theorem Reaction.clear (s : State) (req : Request) : Reaction s req (State.runClear req s) := by
  unfold State.runClear
  extract_lets scope
  exact .ite (fun _ => .answered _ _ _ .clearedAll) fun _ => .ite (fun _ => .answered _ _ _ .clearedPorts) fun _ =>
    .ite (fun _ => .answered _ _ _ .clearedBoth) fun _ => .answerBare ..

/-- Every request row reacts in one of the listed ways. -/
theorem RequestRow.reaction {c : Instr} {mine : Byte → Bool} {body : Request → State → State}
    (h : RequestRow c mine body) (req : Request) (s : State) : Reaction s req (body req s) := by
  cases h with
  | unknown => exact .answerBare ..
  | identify => exact .answer ..
  | readStatus => exact .answer ..
  | readStreamCounters => exact .readStreamCounters ..
  | readPortCounters => exact .readPortCounters ..
  | readEntries => exact .readEntries ..
  | stageStreamEntries => exact .stageStreams ..
  | stageWindowEntries => exact .stageWindows ..
  | stageBaseRecord => exact .stageBase ..
  | copyActiveToShadow => exact .copy ..
  | commit => exact .commit ..
  | cancelCommit => exact .cancel ..
  | portControl => exact .portControl ..
  | retrieveRetained => exact .retrieve ..
  | requeueRetained => exact .requeue ..
  | flushRetained => exact .answered _ _ _ .flushed
  | clearCounters => exact .clear ..
  | queueReset => exact .answered _ _ _ .discarded
  | deviceReset => exact .reset

theorem RequestRow.runTaken_reaction {c : Instr} {mine : Byte → Bool} {body : Request → State → State}
    (h : RequestRow c mine body) (req : Request) (held : Bool) (s : State) :
    Reaction s req (State.runTaken body req held s) :=
  .ite (fun _ => .condition) fun _ => .ite (fun _ => h.reaction req s) fun _ => .answerBare ..

end Sys2Proof.Machine
end

section
/-! What no request changes, and the statements about what only some commands may change (O1 to O4, O7, O59). -/

namespace Sys2Proof.Machine

open Sys2Proof

/-! ### What no request changes -/

/-- What no request changes: the resets' fields, the clock, the gates, the bank in use and the transmissions in flight. -/
structure State.SameRun (s t : State) : Prop where
  power : t.power = s.power
  straps : t.straps = s.straps
  refCount : t.refCount = s.refCount
  pending : t.pending = s.pending
  timer : t.timer = s.timer
  gates : t.gates = s.gates
  epoch : t.mgmt.epoch = s.mgmt.epoch
  active : t.gen.active = s.gen.active
  number : t.gen.number = s.gen.number
  tx : ∀ p, (t.port p).tx = (s.port p).tx

theorem State.SameRun.refl (s : State) : s.SameRun s := by constructor <;> intros <;> rfl

theorem State.SameRun.trans {s t u : State} (h : s.SameRun t) (h' : t.SameRun u) : s.SameRun u := by
  constructor
  case tx => exact fun p => (h'.tx p).trans (h.tx p)
  all_goals simp only [h'.power, h'.straps, h'.refCount, h'.pending, h'.timer, h'.gates, h'.epoch, h'.active, h'.number,
    h.power, h.straps, h.refCount, h.pending, h.timer, h.gates, h.epoch, h.active, h.number]

theorem State.sameRun_take (s : State) : s.SameRun s.take := by constructor <;> simp

theorem State.sameRun_answer (s : State) (req : Request) (st : Status) (n : Nat) (d : List Byte) :
    s.SameRun (s.answer req st n d) := by constructor <;> simp

theorem State.sameRun_answerBare (s : State) (req : Request) (st : Status) : s.SameRun (s.answerBare req st) :=
  s.sameRun_answer req st 0 []

/-- The port side of a PORT CONTROL, where it changes the port. -/
theorem State.sameRun_controlPort {s t : State} {p : Port} {op : PortOp}
    (h : s.controlPort p op = .done t ∨ s.controlPort p op = .waits t) : s.SameRun t := by
  unfold State.controlPort State.enablePort State.disablePort at h
  rcases h with h | h <;> (repeat' split at h) <;> cases h <;> constructor <;> simp

theorem Prepared.sameRun {s t : State} (h : Prepared s t) : s.SameRun t := by
  cases h with
  | portDone p op hp => exact State.sameRun_controlPort (.inl hp)
  | _ => constructor <;> simp

/-- Whatever its kind, a request keeps `State.SameRun`. -/
theorem Reaction.sameRun {s t : State} {req : Request} (h : Reaction s req t) : s.SameRun t := by
  cases h with
  | answered st n d hp => exact hp.sameRun.trans (State.sameRun_answer _ req st n d)
  | condition => constructor <;> simp
  | committed target =>
    unfold State.acceptCommit
    extract_lets early c u
    have hu : s.SameRun u := by constructor <;> simp [u]
    split
    · exact hu.trans (u.sameRun_answerBare req .accepted)
    · exact hu.trans (by constructor <;> simp)
  | portWaits p op _ hp =>
    refine (State.sameRun_controlPort (.inr hp)).trans ?_
    unfold State.waitPortControl
    split <;> constructor <;> simp
  | reset => constructor <;> simp [State.runDeviceReset, allPorts]

theorem State.SameRun.runTaken {c : Instr} {mine : Byte → Bool} {body : Request → State → State}
    (h : RequestRow c mine body) (req : Request) (held : Bool) (s : State) :
    s.SameRun (State.runTaken body req held s.take) :=
  s.sameRun_take.trans (h.runTaken_reaction req held s.take).sameRun

/-! ### Steps, and what a reset state does -/

/-- Settles O1. -/
theorem stepRunsTheFrontCommand : Obligations.StepRunsTheFrontCommand := by
  intro s c rest h
  simp only [step, h]

theorem Effect.pending {s t : State} {c : Instr} (h : Effect s c t) : t.pending = s.pending := by
  cases h with
  | request req held hr => simp [(State.SameRun.runTaken hr req held s).pending]
  | powerOnEvent | pinReset | pinPowerOn | deviceReset => rfl
  | _ => simp

/-- Settles O3: by what `exec_effect` lists. -/
theorem everyCommandAnswersAndKeepsTheQueue : Obligations.EveryCommandAnswersAndKeepsTheQueue := by
  intro c s
  obtain ⟨t, ht, h⟩ := exec_effect c s
  exact ⟨t, ht, h.pending⟩

/-- A command that is no power command does nothing to a part in reset. -/
theorem Effect.eq_of_not_running {s t : State} {c : Instr} (he : Effect s c t) (h : s.power ≠ .running)
    (hc : c.isPowerCommand = false) : t = s := by
  cases he with
  | unchanged => rfl
  | receptionStart p hp => exact absurd hp (by simp [State.mayReceive, h])
  | deviceReset hp | kindField _ _ hp | receptionEnd _ _ hp | linkCheck _ _ hp | cycleEnd hp | windowEvent _ hp
  | transmissionEnd _ hp | request _ _ _ hp => exact absurd hp h
  | _ => cases hc

/-! ### The halt (R107, R165, R166) -/

theorem PortUnit.tx_none_eq {u : PortUnit} (h : u.tx = none) : { u with tx := none } = u := by
  cases u; simp_all

theorem PortUnit.rx_none_eq {u : PortUnit} (h : u.rx = none) : { u with rx := none } = u := by
  cases u; simp_all

theorem State.modPort_self {s : State} {p : Port} {f : PortUnit → PortUnit} (h : f (s.port p) = s.port p) :
    s.modPort p f = s := by
  have h' : f (s.ports.get p) = s.ports.get p := h
  simp only [State.modPort, h', Trio.set_get]

theorem State.stopTransmission_eq (s : State) (p : Port) : s.stopTransmission p =
    { s.modPort p fun u => { u with tx := none } with store := (s.stopTransmission p).store } := by
  unfold State.stopTransmission
  split
  next h => rw [State.modPort_self (PortUnit.tx_none_eq h)]
  next => split <;> [rfl; exact State.releaseSlot_eq _ _]

theorem State.releaseSlot?_eq (s : State) (o : Option Nat) :
    s.releaseSlot? o = { s with store := (s.releaseSlot? o).store } := by
  cases o <;> [rfl; exact State.releaseSlot_eq _ _]

theorem State.abandonReception_eq (s : State) (p : Port) : s.abandonReception p =
    { s.modPort p fun u => { u with rx := none } with store := (s.abandonReception p).store } := by
  unfold State.abandonReception
  split
  next h => rw [State.modPort_self (PortUnit.rx_none_eq h)]
  next => exact State.releaseSlot?_eq _ _

/-- The halt clears every transmission and reception and the drain, and touches nothing else but the slots' counts. -/
theorem State.halt_eq (s : State) : s.halt = { s with
    ports := ⟨{ s.ports.A with tx := none, rx := none }, { s.ports.B with tx := none, rx := none },
      { s.ports.L with tx := none, rx := none }⟩
    store := s.halt.store, mgmt := { s.mgmt with drain := none } } := by
  simp only [State.halt, allPorts, List.foldl_cons, List.foldl_nil]
  rw [State.abandonReception_eq _ .L, State.abandonReception_eq _ .B, State.abandonReception_eq _ .A,
    State.stopTransmission_eq _ .L, State.stopTransmission_eq _ .B, State.stopTransmission_eq _ .A]
  rfl

theorem State.port_halt (s : State) (p : Port) : s.halt.port p = { s.port p with tx := none, rx := none } := by
  rw [State.halt_eq]
  cases p <;> rfl

/-- Settles O4: by `State.halt_eq`, and by what `Effect` lists for a part in reset. -/
theorem resetHaltsThePart : Obligations.ResetHaltsThePart := by
  intro s
  refine ⟨fun hrun => ⟨⟨s.halt.setPower .resetLow, ?_, rfl, fun p => ?_, ?_, ?_⟩,
    ⟨s.halt.setPower (.hold false), ?_, rfl, fun p => ?_, ?_, ?_⟩⟩, fun hrun => ⟨fun c hc => ?_, fun hp => ?_⟩,
    fun low v hp => ⟨?_, ?_⟩, fun hp => ?_⟩
  case refine_1 | refine_5 => simp only [exec, execResetNAssertion, execPowerOnHold, hrun]
  case refine_2 | refine_6 => exact s.port_halt p
  case refine_3 | refine_7 => simp
  case refine_4 | refine_8 =>
    rw [State.halt_eq]
    rfl
  · obtain ⟨t, ht, he⟩ := exec_effect c s
    rw [ht, he.eq_of_not_running hrun hc]
  · simp only [step, hp, State.idleStep, hrun, if_false]
  · simp only [exec, execResetNAssertion, hp, State.setPower]
  · simp only [exec, execPinReset, hp, State.setPower]
  · rcases hp with hp | hp <;> simp only [exec, execPowerOnHold, hp, State.setPower]

/-! ### What only some commands change -/

/-- The epoch after a reset (R149) is never 0. -/
theorem nextEpoch_law (e : Byte) : (nextEpoch e = 1 ∨ e ≠ 255 ∧ nextEpoch e = e + 1) ∧ nextEpoch e ≠ 0 := by
  unfold nextEpoch
  split
  next => exact ⟨.inl rfl, by decide⟩
  next h => exact ⟨.inr ⟨h, rfl⟩, by bv_omega⟩

/-- Settles O7: each field by what the effects that may touch it leave (the frames of their operations). -/
theorem epochStrapsAndTimerChangeOnlyAtTheirEvents : Obligations.EpochStrapsAndTimerChangeOnlyAtTheirEvents := by
  intro c s t h
  cases effect_of_exec h with
  | request req held hr =>
    have hk := State.SameRun.runTaken hr req held s
    simp [hk.epoch, hk.straps, hk.timer, hk.refCount, hr.not_power, hr.not_event]
  | unchanged => simp
  | powerOnEvent v | pinPowerOn v => simp [Instr.isReset, State.powerOnEvent, State.resetBlocks, Management.initial,
      FrameStore.initial]
  | pinReset v =>
    obtain ⟨hor, hne⟩ := nextEpoch_law s.mgmt.epoch
    exact ⟨nofun, .inr hor, fun _ => hne, fun hn => absurd rfl (hn v).2, fun _ _ => nofun, fun _ => nofun,
      fun _ => rfl, rfl⟩
  | deviceReset =>
    obtain ⟨hor, hne⟩ := nextEpoch_law s.mgmt.epoch
    exact ⟨nofun, .inr hor, fun _ => hne, fun _ => rfl, fun _ _ => nofun, fun _ => nofun, fun _ => rfl,
      rfl⟩
  | _ => simp [Instr.isReset, Instr.isPowerCommand]

/-! ### The generation -/

theorem Reaction.shadow_of_pending {s t : State} {req : Request} (h : Reaction s req t) (hc : s.gen.commit ≠ none) :
    t.gen.shadow = s.gen.shadow := by
  cases h with
  | answered st n d hp =>
    cases hp with
    | shadow _ hn => exact absurd hn hc
    | portDone p op hp =>
      unfold State.controlPort State.enablePort State.disablePort at hp
      (repeat' split at hp) <;> cases hp <;> simp
    | _ => simp
  | committed _ hn => exact absurd hn hc
  | condition => simp
  | portWaits p op _ hp =>
    unfold State.controlPort State.enablePort State.disablePort at hp
    unfold State.waitPortControl
    (repeat' split at hp) <;> cases hp <;> split <;> simp
  | reset => simp [State.runDeviceReset, allPorts]

/-- The end of a commit empties its slot (R134). -/
@[simp] theorem State.commit_completeCommit (s : State) (st : Status) (d : Option Detail) :
    (s.completeCommit st d).gen.commit = none := by
  unfold State.completeCommit
  split
  next h => exact h
  next => simp

/-- A round start either leaves the banks as they are, or exchanges them and ends the pending commit (R126, R127). -/
theorem State.roundStart_gen (s : State) :
    (s.roundStart.gen.number = s.gen.number ∧ s.roundStart.gen.active = s.gen.active ∧
      s.roundStart.gen.shadow = s.gen.shadow) ∨
    (s.roundStart.gen.number = s.gen.number + 1 ∧ s.roundStart.gen.active = s.gen.shadow ∧
      s.roundStart.gen.shadow = s.gen.active ∧ s.roundStart.gen.commit = none) := by
  unfold State.roundStart
  split
  next => simp
  next c hc =>
    split
    next =>
      split
      next =>
        exact .inr (by simp [State.swap, State.exchangeBanks])
      next => split <;> simp
    next => simp

/-- So does a cycle end (R20). -/
theorem State.cycleEnd_gen (s : State) :
    (s.cycleEnd.gen.number = s.gen.number ∧ s.cycleEnd.gen.active = s.gen.active ∧
      s.cycleEnd.gen.shadow = s.gen.shadow) ∨
    (s.cycleEnd.gen.number = s.gen.number + 1 ∧ s.cycleEnd.gen.active = s.gen.shadow ∧
      s.cycleEnd.gen.shadow = s.gen.active ∧ s.cycleEnd.gen.commit = none) := by
  have hgen : s.cycleEnd.gen =
      ((s.modTimer (Timer.count s.base.cyclesPerRound.toNat)).accountMissed).atRoundStart.gen := by
    simp [State.cycleEnd, State.cycleEndTimer]
  rw [hgen, State.atRoundStart]
  split
  · simpa using (State.roundStart_gen (s.modTimer (Timer.count s.base.cyclesPerRound.toNat)).accountMissed)
  · simp

/-- Settles O59: a swap comes about in a cycle end alone, and a request stages into the shadow only while no commit is
pending. -/
theorem generationRisesOnlyAtSwaps : Obligations.GenerationRisesOnlyAtSwaps := by
  intro s t c h
  cases effect_of_exec h with
  | request req held hr =>
    have hk := State.SameRun.runTaken hr req held s
    have hs := (hr.runTaken_reaction req held s.take).shadow_of_pending
    simp at hs
    simp [hk.number, hk.active]
    exact fun h _ => hs h
  | powerOnEvent v | pinPowerOn v | pinReset v | deviceReset =>
    refine ⟨.inr (.inr ⟨rfl, rfl, rfl⟩), fun _ h => absurd rfl h⟩
  | cycleEnd =>
    rw [show s.cycleEnd.settle.gen = s.cycleEnd.gen by simp]
    rcases s.cycleEnd_gen with ⟨hn, ha, hs⟩ | ⟨hn, ha, hs, hc⟩
    · exact ⟨.inl ⟨hn, ha⟩, fun _ _ => hs⟩
    · exact ⟨.inr (.inl ⟨rfl, hn, ha, hs, hc⟩), fun _ h => absurd hc h⟩
  | _ => simp

end Sys2Proof.Machine
end

section
/-! What every operation keeps. `Kept P` says that the elementary changes of the part keep `P`, each under the guard
under which the model makes it; every operation, and so every command but a reset, then keeps `P`. The invariants of
O50, O51, O53, O54 and O55 are each checked against the elementary changes alone. -/

namespace Sys2Proof.Machine

open Sys2Proof

/-- The elementary changes of the part, each with the guard under which it is made, keep `P`. -/
structure Kept (P : State → Prop) : Prop where
  /-- Bytes are written into a slot (R60). -/
  write : ∀ {s} n bs, P s → P (s.writeSlot n bs)
  /-- Counts and the free list change (R61 to R63). -/
  store : ∀ {s : State} (f : FrameStore), f.mem = s.store.mem → P s → P { s with store := f }
  /-- What belongs to no list and to no bank changes. -/
  rest : ∀ {s t : State}, t = { s with
    power := t.power, straps := t.straps, refCount := t.refCount, timer := t.timer, streams := t.streams
    gates := t.gates, opportunities := t.opportunities, pending := t.pending
    mgmt := { s.mgmt with
      engine := t.mgmt.engine, notices := t.mgmt.notices, noticeSeq := t.mgmt.noticeSeq
      drain := t.mgmt.drain } } → P s → P t
  /-- A port unit changes and starts no descriptor. -/
  port : ∀ {s : State} p f, ((f (s.port p)).tx.any Transmission.hasDesc = true →
    (s.port p).tx.any Transmission.hasDesc = true) → P s → P (s.modPort p f)
  /-- An idle port starts the head of a queue (R100). -/
  start : ∀ {s : State} p c, (s.port p).tx = none → P s → P (s.startDesc p c)
  /-- The retention queue changes within its bound (R110). -/
  retention : ∀ {s : State} (r : Retention), (r.records.length ≤ s.retention.records.length ∨ r.records.length ≤ 32) →
    P s → P { s with retention := r }
  /-- Descriptors leave a queue. -/
  queue : ∀ {s : State} p c q, q.Sublist (s.egress p c) → P s → P (s.setEgress p c q)
  /-- A descriptor joins the queue of its class, which has room, as has the pool (R65 to R68). -/
  append : ∀ {s : State} p d, (s.egress p d.cls).length < 128 → s.descsInUse < 512 → P s → P (s.append p d.cls d)
  /-- The request queue changes within its bound (R137). -/
  requests : ∀ {s : State} rs, (rs.length ≤ s.mgmt.requests.length ∨ rs.length ≤ 8) → P s → P (s.setRequests rs)
  /-- An answer is recorded (R141). -/
  record : ∀ {s : State} r t k st, P s → P (s.recordAnswer r t k st)
  /-- Conditions are delivered (R145). -/
  conditions : ∀ {s : State} f, P s → P (s.setConditions (s.mgmt.conditions.filter f))
  /-- A commit of a validated shadow becomes pending (R124, R142). -/
  commitTaken : ∀ {s : State} (c : Commit), s.gen.commit = none → s.gen.shadow.validate = none →
    (c.slot = none ↔ c.early = true) → (c.early = true → s.earlyGranted = true) → P s → P (s.setCommit (some c))
  /-- A pending commit ends (R134). -/
  commitEnded : ∀ {s : State}, P s → P (s.setCommit none)
  /-- A pending commit that keeps no slot fails (R144). -/
  commitFailed : ∀ {s : State} {c : Commit} k st d, s.gen.commit = some c → c.slot = none → P s →
    P ((s.setCommit none).fileCondition c.requester c.tag k st d)
  /-- A PORT CONTROL waits (R142). -/
  controlTaken : ∀ {s : State} p (o : PortControl), s.mgmt.portControl.get p = none →
    (o.slot = none ↔ o.early = true) → (o.early = true → s.earlyGranted = true) → P s → P (s.setPortControl p (some o))
  /-- A waiting PORT CONTROL ends (R160). -/
  controlEnded : ∀ {s : State} p, P s → P (s.setPortControl p none)
  /-- A waiting PORT CONTROL that keeps no slot fails (R144). -/
  controlFailed : ∀ {s : State} {p : Port} {o : PortControl} k st d, s.mgmt.portControl.get p = some o → o.slot = none →
    P s → P ((s.setPortControl p none).fileCondition o.requester o.tag k st d)
  /-- The shadow is loaded while no commit is pending (R122). -/
  shadow : ∀ {s : State} b, s.gen.commit = none → P s → P (s.setShadow b)
  /-- The banks exchange their roles at a swap (R127). -/
  exchange : ∀ {s : State}, s.gen.commit ≠ none → P s → P s.exchangeBanks

/-! ### Room for an append -/

theorem State.room_of_trafficAnswer {s : State} {p : Port} {c : Cls} (h : s.trafficAnswer p c = .accepted) :
    (s.egress p c).length < 128 ∧ s.descsInUse < 512 := by
  obtain ⟨-, hroom⟩ := (s.trafficAnswer_eq_accepted_iff p c).mp h
  simp only [State.NoRoom, State.descsFree, Config.descriptors] at hroom
  omega

theorem State.room_of_mgmtAnswer {s : State} {p : Port} {c : Cls} (h : s.mgmtAnswer p c = .accepted) :
    (s.egress p c).length < 128 ∧ s.descsInUse < 512 := by
  unfold State.mgmtAnswer State.descsFree Config.queueCap Config.descriptors at h
  split_ifs at h
  simp_all
  omega

theorem foldl_keeps {P : State → Prop} {α : Type} {f : State → α → State} (h : ∀ {s} a, P s → P (f s a)) (l : List α)
    {s : State} (hs : P s) : P (l.foldl f s) :=
  List.foldlRecOn l f hs fun _ hs a _ => h a hs

section Traversal

variable {P : State → Prop} (hP : Kept P) {s : State}
include hP

/-! ### Slots, ports, streams and marks -/

theorem Kept.releaseSlot (n : Nat) (hs : P s) : P (s.releaseSlot n) := by
  unfold State.releaseSlot
  split
  · exact hs
  all_goals exact hP.store _ rfl hs

theorem Kept.releaseSlot? (o : Option Nat) (hs : P s) : P (s.releaseSlot? o) := by
  cases o with
  | none => exact hs
  | some n => exact hP.releaseSlot n hs

theorem Kept.settleSlot (n k : Nat) (hs : P s) : P (s.settleSlot n k) := by
  cases k with
  | zero => exact hP.releaseSlot n hs
  | succ => exact hP.store _ rfl hs

theorem Kept.takeSlot (hs : P s) : P s.takeSlot.2 := by
  unfold State.takeSlot
  split
  · exact hs
  · exact hP.store _ rfl hs

theorem Kept.countPort (p : Port) (f : PortCounters → PortCounters) (hs : P s) : P (s.countPort p f) :=
  hP.port p _ id hs

theorem Kept.emptyHolder (p : Port) (hs : P s) : P (s.emptyHolder p) := hP.port p _ id hs

theorem Kept.abandonReception (p : Port) (hs : P s) : P (s.abandonReception p) := by
  unfold State.abandonReception
  split
  · exact hs
  · exact hP.releaseSlot? _ (hP.port p _ id hs)

theorem Kept.raise (p : Port) (hs : P s) : P (s.raise p) := hP.rest rfl hs

theorem Kept.modStream (i : Byte) (f : StreamState → StreamState) (hs : P s) : P (s.modStream i f) := hP.rest rfl hs

theorem Kept.countStream (i : Byte) (f : StreamCounters → StreamCounters) (hs : P s) : P (s.countStream i f) :=
  hP.modStream i _ hs

theorem Kept.setMark (k : NoticeKind) (m : NoticeMark) (hs : P s) : P (s.setMark k m) := hP.rest rfl hs

theorem Kept.noticeEvent (k : NoticeKind) (hs : P s) : P (s.noticeEvent k) := by
  unfold State.noticeEvent
  split
  · exact hP.setMark k _ hs
  · exact hs

theorem Kept.changePort (p : Port) (st : PortState) (hs : P s) : P (s.changePort p st) :=
  hP.noticeEvent _ (hP.port p _ id hs)

theorem Kept.mapStreams (f : StreamState → StreamState) (hs : P s) : P (s.mapStreams f) := hP.rest rfl hs

theorem Kept.modTimer (f : Timer → Timer) (hs : P s) : P (s.modTimer f) := hP.rest rfl hs

theorem Kept.changeSync (st : SyncState) (hs : P s) : P (s.changeSync st) := by
  unfold State.changeSync
  split
  · exact hs
  · exact hP.noticeEvent _ (hP.modTimer _ hs)

/-! ### Retention and disposals -/

theorem Kept.retain (r : Record) (hroom : s.retentionRoom = true) (hs : P s) : P (s.retain r) := by
  have hlen : s.retention.records.length < 32 := of_decide_eq_true hroom
  have hset : P (s.setRecords (s.retention.records ++ [r])) := hP.retention _ (.inr (by simp; omega)) hs
  unfold State.retain
  extract_lets kept
  split
  · exact hP.noticeEvent _ hset
  · exact hset

theorem Kept.overflow (hs : P s) : P s.overflow := hP.retention _ (.inl (Nat.le_refl _)) hs

theorem Kept.dropCopy (i : Byte) (n : Nat) (hs : P s) : P (s.dropCopy i n) :=
  hP.releaseSlot n (hP.countStream i _ hs)

theorem Kept.dispose (r : Reason) (p : Port) (d : Desc) (hs : P s) : P (State.dispose r p s d) := by
  unfold State.dispose
  split
  · split
    · split
      next hroom => exact hP.retain _ hroom hs
      next => exact hP.dropCopy _ _ (hP.overflow hs)
    all_goals exact hP.dropCopy _ _ hs
  · exact hP.releaseSlot _ hs
  · exact hP.releaseSlot _ (hP.countPort p _ hs)

theorem Kept.disposeQueue (p : Port) (c : Cls) (hs : P s) : P (State.disposeQueue p s c) :=
  foldl_keeps (fun d => hP.dispose _ p d) _ (hP.queue p c [] (List.nil_sublist _) hs)

theorem Kept.disposeQueues (p : Port) (hs : P s) : P (s.disposeQueues p) := foldl_keeps (hP.disposeQueue p) _ hs

/-! ### The gate controller -/

theorem Kept.modGates (p : Port) (f : GateUnit → GateUnit) (hs : P s) : P (s.modGates p f) := hP.rest rfl hs

theorem Kept.gatesOnly {t : State} (h : s.GatesOnly t) (hs : P s) : P t := by
  rw [h]
  exact hP.rest rfl hs

theorem Kept.takeLate (p : Port) (d : Desc) (hs : P s) : P (State.takeLate p s d) := by
  unfold State.takeLate
  split
  · exact hP.dispose _ p d (hP.countStream _ _ hs)
  all_goals exact hP.dispose _ p d hs

theorem Kept.checkQueue (p : Port) (c : Cls) (hs : P s) : P (State.checkQueue p s c) := by
  have h := foldl_keeps (fun d => hP.takeLate p d) ((s.egress p c).filter (Desc.isLate s.timer.cycleCount))
    (hP.queue p c _ (List.filter_sublist (p := fun d => !d.isLate s.timer.cycleCount)) hs)
  unfold State.checkQueue
  extract_lets q late u
  split
  · exact hP.raise p h
  · exact h

theorem Kept.latenessCheck (p : Port) (ws : List OpenWindow) (hs : P s) : P (s.latenessCheck p ws) :=
  foldl_keeps (hP.checkQueue p) _ hs

theorem Kept.closeAll (check : Bool) (p : Port) (hs : P s) : P (State.closeAll check s p) := by
  unfold State.closeAll
  extract_lets ws u
  split
  · exact hP.latenessCheck p ws (hP.modGates p _ hs)
  · exact hP.modGates p _ hs

theorem Kept.closeEvery (check : Bool) (hs : P s) : P (s.closeEvery check) := foldl_keeps (hP.closeAll check) _ hs

theorem Kept.openEvery (due : WindowEntry → Bool) (hs : P s) : P (s.openEvery due) :=
  hP.gatesOnly (s.gatesOnly_openEvery due) hs

theorem Kept.evaluateEvery (mode : ReportMode) (hs : P s) : P (s.evaluateEvery mode) :=
  hP.gatesOnly (s.gatesOnly_evaluateEvery mode) hs

theorem Kept.windowEvent (p : Port) (hs : P s) : P (s.windowEvent p) :=
  hP.gatesOnly (s.gatesOnly_windowEvent p) (hP.latenessCheck p _ (hP.modGates p _ hs))

theorem Kept.gatesCycleEnd (old : UnlockedPolicy) (hs : P s) : P (State.gatesCycleEnd old s) :=
  hP.evaluateEvery _ (hP.openEvery _ (hP.closeEvery _ hs))

theorem Kept.gatesStep (hs : P s) : P s.gatesStep := hP.evaluateEvery _ (hP.openEvery _ (hP.closeEvery _ hs))

theorem Kept.gatesSyncEvent (was : Bool) (hs : P s) : P (State.gatesSyncEvent was s) := by
  unfold State.gatesSyncEvent
  split
  · exact hP.evaluateEvery _ (hP.closeEvery _ hs)
  · exact hP.evaluateEvery _ (hP.openEvery _ hs)
  · exact hs

/-! ### The arbiter -/

theorem Kept.startSync (p : Port) (hs : P s) : P (s.startSync p) := by
  unfold State.startSync
  split
  · exact hs
  · exact hP.port p _ (by simp [Transmission.hasDesc]) hs

theorem Kept.arbitrate (p : Port) (hs : P s) : P (s.arbitrate p) := by
  unfold State.arbitrate
  split
  next h =>
    split
    · exact hs
    · exact hP.startSync p hs
    · exact hP.start p _ (by simp_all) hs
  next => exact hs

theorem Kept.takeOpportunity (p : Port) (hs : P s) : P (s.takeOpportunity p) := by
  unfold State.takeOpportunity
  split
  · exact hP.arbitrate p (hP.rest rfl hs)
  · exact hs

theorem Kept.settle (hs : P s) : P s.settle := foldl_keeps hP.takeOpportunity _ hs

/-! ### Replies and completions -/

theorem Kept.appendReply (p : Port) (slot n : Nat) (hs : P s) : P (s.appendReply p slot n) := by
  unfold State.appendReply
  split
  next h =>
    obtain ⟨hq, hd⟩ := State.room_of_mgmtAnswer h
    exact hP.append p (mgmtDesc slot s.mgmtClass n) hq hd hs
  all_goals exact hP.releaseSlot _ (hP.countPort p _ hs)

theorem Kept.sendReply (p : Port) (slot : Nat) (r : Reply) (hs : P s) : P (s.sendReply p slot r) :=
  hP.appendReply p slot _ (hP.write slot _ hs)

theorem Kept.setEngine (e : Engine) (hs : P s) : P (s.setEngine e) := hP.rest rfl hs

theorem Kept.engineReply (req : Request) (r : Reply) (hs : P s) : P (s.engineReply req r) :=
  hP.sendReply _ _ _ (hP.record _ _ _ _ hs)

theorem Kept.answer (req : Request) (st : Status) (n : Nat) (d : List Byte) (hs : P s) : P (s.answer req st n d) :=
  hP.setEngine _ (hP.engineReply _ _ hs)

theorem Kept.completePortControl (p : Port) (st : Status) (d : Option Detail) (hs : P s) :
    P (s.completePortControl p st d) := by
  unfold State.completePortControl
  split
  next => exact hs
  next o ho =>
    unfold State.completeOp
    split
    next => exact hP.sendReply _ _ _ (hP.record _ _ _ _ (hP.controlEnded p hs))
    next hn =>
      split
      next d => exact hP.controlFailed _ _ d ho hn hs
      next => exact hP.controlEnded p hs

theorem Kept.completeCommit (st : Status) (d : Option Detail) (hs : P s) : P (s.completeCommit st d) := by
  unfold State.completeCommit
  split
  next => exact hs
  next c hc =>
    unfold State.completeOp
    split
    next => exact hP.sendReply _ _ _ (hP.record _ _ _ _ (hP.commitEnded hs))
    next hn =>
      split
      next d => exact hP.commitFailed _ _ d hc hn hs
      next => exact hP.commitEnded hs

theorem Kept.intake (p : Port) (slot n : Nat) (hs : P s) : P (s.intake p slot n) := by
  unfold State.intake
  extract_lets req r
  split
  · exact hP.sendReply p slot _ hs
  · split
    · exact hP.sendReply p slot _ hs
    · split
      · exact hP.sendReply p slot _ hs
      next h =>
        simp only [Config.requestPlaces] at h
        exact hP.requests _ (.inr (by simp; omega)) hs

theorem Kept.take (hs : P s) : P s.take := by
  unfold State.take
  split
  next q rest _ hr => exact hP.setEngine _ (hP.requests rest (.inl (by simp [hr])) hs)
  next => exact hs

theorem Kept.deliverCondition (req : Request) (hs : P s) : P (s.deliverCondition req) := by
  unfold State.deliverCondition
  exact hP.setEngine _ (hP.engineReply _ _ (hP.conditions _ hs))

theorem Kept.buildNotice (p : Port) (slot : Nat) (k : NoticeKind) (hq : (s.egress p s.mgmtClass).length < 128)
    (hd : s.descsInUse < 512) (hs : P s) : P (s.buildNotice p slot k) := by
  unfold State.buildNotice
  extract_lets bs u
  exact hP.rest (s := u.setMark k ⟨false, 0⟩) rfl (hP.setMark k _
    (hP.append p (mgmtDesc slot s.mgmtClass 32) (by simpa [mgmtDesc] using hq)
      (by simpa [State.descsInUse] using hd) (hP.write slot bs hs)))

theorem Kept.tryNotice (k : NoticeKind) (hs : P s) : P (s.tryNotice k) := by
  unfold State.tryNotice
  split
  · split
    · split
      · exact hs
      next p _ =>
        split
        next h =>
          obtain ⟨hq, hd⟩ := State.room_of_mgmtAnswer h
          split
          next slot t ht =>
            obtain rfl : s.takeSlot.2 = t := by rw [ht]
            exact hP.buildNotice p slot k (by simpa [State.mgmtClass] using hq) (by simpa [State.descsInUse] using hd)
              (hP.takeSlot hs)
          next => exact hs
        all_goals exact hs
    · exact hP.setMark k _ hs
  · exact hs

theorem Kept.tryNotices (hs : P s) : P s.tryNotices := by
  unfold State.tryNotices
  split
  · exact hs
  · exact foldl_keeps (fun k => hP.tryNotice k) _ hs

/-! ### Cycle ends and the servo -/

theorem Kept.takeBaseIntoUse (old : BaseRecord) (hs : P s) : P (s.takeBaseIntoUse old) := by
  unfold State.takeBaseIntoUse
  extract_lets u
  have hu : P u := by
    unfold u
    split
    · exact hs
    · exact hP.modTimer _ hs
  split
  · exact hP.changeSync _ (hP.modTimer _ hu)
  · exact hu

theorem Kept.swap (hc : s.gen.commit ≠ none) (hs : P s) : P s.swap :=
  hP.completeCommit _ _ (hP.noticeEvent _ (hP.takeBaseIntoUse _ (hP.mapStreams _ (hP.exchange hc hs))))

theorem Kept.roundStart (hs : P s) : P s.roundStart := by
  unfold State.roundStart
  split
  next => exact hs
  next c hc =>
    split
    · split
      · exact hP.swap (by simp [hc]) hs
      · split
        · exact hs
        · exact hP.completeCommit _ _ hs
    · exact hs

theorem Kept.commitStep (hs : P s) : P s.commitStep := by
  unfold State.commitStep
  split
  · exact hs
  · split
    · exact hs
    · split
      · exact hs
      · exact hP.completeCommit _ _ hs

theorem Kept.accountMissed (hs : P s) : P s.accountMissed := by
  unfold State.accountMissed
  split
  · exact hP.modTimer _ hs
  · exact hP.changeSync _ (hP.modTimer _ hs)

theorem Kept.cycleEndTimer (hs : P s) : P s.cycleEndTimer := by
  have h : P (s.modTimer (Timer.count s.base.cyclesPerRound.toNat)).accountMissed :=
    hP.accountMissed (hP.modTimer _ hs)
  unfold State.cycleEndTimer State.atRoundStart
  refine hP.modTimer _ ?_
  split
  · exact hP.roundStart h
  · exact h

theorem Kept.cycleEnd (hs : P s) : P s.cycleEnd :=
  hP.tryNotices (hP.mapStreams _ (hP.gatesCycleEnd _ (hP.cycleEndTimer hs)))

theorem Kept.phaseStep (point : W16 × Nat × Nat) (n : Nat) (hs : P s) : P (s.phaseStep point n) :=
  hP.commitStep (hP.gatesStep (hP.changeSync _ (hP.modTimer _ hs)))

theorem Kept.servoCorrect (err : Int) (sync : SyncState) (good : Nat) (hs : P s) : P (s.servoCorrect err sync good) :=
  hP.gatesSyncEvent _ (hP.changeSync _ (hP.modTimer _ hs))

theorem Kept.useSync (rx : Reception) (f : SyncFrame) (hs : P s) : P (s.useSync rx f) := by
  unfold State.useSync
  extract_lets point m mismatch act u
  cases act with
  | step => exact hP.phaseStep _ _ (hP.modTimer _ hs)
  | correct => exact hP.servoCorrect _ _ _ (hP.modTimer _ hs)

theorem Kept.fillHolder (h : HeldSync) (p : Port) (hs : P s) : P (State.fillHolder h s p) := by
  unfold State.fillHolder
  split
  · refine hP.raise p (hP.port p _ id ?_)
    split
    · exact hP.countPort p _ hs
    · exact hs
  · exact hs

theorem Kept.syncArrival (p : Port) (rx : Reception) (f : SyncFrame) (hs : P s) : P (s.syncArrival p rx f) := by
  refine foldl_keeps (hP.fillHolder _) _ ?_
  split
  · exact hP.useSync rx f hs
  · exact hs

/-! ### Classification -/

theorem Kept.captureFrame (i : Byte) (e : StreamEntry) (a : Arrival) (hs : P s) : P (s.captureFrame i e a) := by
  unfold State.captureFrame
  split
  next hroom => exact hP.retain _ hroom hs
  next => exact hP.dropCopy _ _ (hP.overflow hs)

theorem Kept.monitorStep (i : Byte) (e : StreamEntry) (a : Arrival) (hs : P s) : P (s.monitorStep i e a).1 := by
  unfold State.monitorStep
  split
  · exact hs
  all_goals exact hP.modStream i _ hs

theorem Kept.budgetStep (i : Byte) (e : StreamEntry) (a : Arrival) (hs : P s) : P (s.budgetStep i e a).1 := by
  unfold State.budgetStep
  split
  · exact hs
  · split
    · exact hP.modStream i _ hs
    · exact hP.countStream i _ hs

theorem Kept.copyDown (i : Byte) (e : StreamEntry) (c : Cls) (a : Arrival) (p : Port) (hs : P s) :
    P (s.copyDown i e c a p).1 := by
  unfold State.copyDown
  split
  · split
    next hroom => exact hP.retain _ hroom hs
    next => exact hP.countStream i _ (hP.overflow hs)
  all_goals exact hP.countStream i _ hs

theorem Kept.forwardMatched (i : Byte) (e : StreamEntry) (c : Cls) (a : Arrival) (hs : P s) :
    P (s.forwardMatched i e c a) := by
  unfold State.forwardMatched
  extract_lets ports r
  split
  · exact hP.dropCopy _ _ hs
  · refine hP.settleSlot _ _ (List.foldlRecOn (motive := fun (r : State × Nat) => P r.1) ports _ hs fun r hr p _ => ?_)
    unfold State.copyStep
    split
    next => exact hP.copyDown i e c a p hr
    next => exact hP.countStream i _ hr
    next => exact hP.countStream i _ hr
    next h =>
      obtain ⟨hq, hd⟩ := State.room_of_trafficAnswer h
      exact hP.append p (streamDesc i e c a) hq hd hr

theorem Kept.classifyMatched (i : Byte) (e : StreamEntry) (a : Arrival) (hs : P s) : P (s.classifyMatched i e a) := by
  have hm : P ((s.countMatch i e a).monitorStep i e a).1 := hP.monitorStep i e a (hP.modStream i _ hs)
  unfold State.classifyMatched State.actionStep State.budgetAndForward
  extract_lets u
  split
  · exact hP.dropCopy _ _ (hP.modStream i _ hs)
  · split
    · split
      · split
        · exact hP.dropCopy _ _ (hP.budgetStep i e a hm)
        · exact hP.forwardMatched i e _ a (hP.budgetStep i e a hm)
      · exact hP.dropCopy _ _ hm
      · exact hP.captureFrame i e a hm
    · exact hP.dropCopy _ _ hm

theorem Kept.classifyUnmatched (a : Arrival) (hs : P s) : P (s.classifyUnmatched a) := by
  have hc : P (s.countPort a.port PortCounters.incUnmatched) := hP.countPort a.port _ hs
  unfold State.classifyUnmatched
  extract_lets u
  split
  · exact hP.releaseSlot _ hc
  · split
    · exact hP.releaseSlot _ hc
    · refine hP.settleSlot _ _ (List.foldlRecOn (motive := fun (r : State × Nat) => P r.1) _ _ hc fun r hr p _ => ?_)
      unfold State.unmatchedCopy
      split
      next h =>
        obtain ⟨hq, hd⟩ := State.room_of_trafficAnswer h
        exact hP.append p (unmatchedDesc a) hq hd hr
      all_goals exact hr

theorem Kept.classify (a : Arrival) (hs : P s) : P (s.classify a) := by
  unfold State.classify
  split
  · split
    · exact hP.intake _ _ _ hs
    · exact hP.releaseSlot _ (hP.countPort _ _ hs)
  · split
    · exact hP.classifyMatched _ _ a hs
    · exact hP.classifyUnmatched a hs

/-! ### The port units' events -/

theorem Kept.startReception (p : Port) (hs : P s) : P (s.startReception p) := by
  unfold State.startReception
  exact hP.port p _ id (hP.takeSlot hs)

theorem Kept.receiveKind (p : Port) (k : Byte) (hs : P s) : P (s.receiveKind p k) := by
  unfold State.receiveKind
  split
  · exact hs
  · split
    · exact hs
    · split
      · exact hP.releaseSlot? _ (hP.port p _ id hs)
      · exact hP.port p _ id hs

theorem Kept.handOn (p : Port) (rx : Reception) (k : Byte) (bytes : List Byte) (hs : P s) :
    P (s.handOn p rx k bytes) := by
  unfold State.handOn
  split
  · split
    · exact hP.syncArrival p rx _ hs
    · exact hP.countPort p _ hs
  · split
    · exact hs
    · exact hP.classify _ hs

theorem Kept.storeBytes (rx : Reception) (bytes : List Byte) (hs : P s) : P (s.storeBytes rx bytes) := by
  unfold State.storeBytes
  split
  · exact hs
  · exact hP.write _ _ hs

theorem Kept.checkAndHandOn (p : Port) (rx : Reception) (k : Byte) (bytes : List Byte) (hs : P s) :
    P (s.checkAndHandOn p rx k bytes) := by
  have hb := hP.storeBytes rx bytes hs
  unfold State.checkAndHandOn
  extract_lets u
  split
  · exact hP.releaseSlot? _ (hP.countPort p _ hb)
  · exact hP.releaseSlot? _ (hP.countPort p _ hb)
  · exact hP.handOn p rx k bytes (hP.countPort p _ hb)

theorem Kept.endReception (p : Port) (bytes : List Byte) (hs : P s) : P (s.endReception p bytes) := by
  have hf : P (s.finishKind p bytes) := by
    unfold State.finishKind
    split
    · exact hP.receiveKind p _ hs
    · exact hs
  unfold State.endReception
  extract_lets u
  split
  · exact hs
  next v _ rx _ =>
    extract_lets k
    have hv : P v := hP.port p _ id hf
    split
    · exact hP.countPort p _ hv
    · exact hP.checkAndHandOn p _ k bytes hv

theorem Kept.cutTransmission (p : Port) (hs : P s) : P (s.cutTransmission p) := by
  unfold State.cutTransmission
  split
  · exact hs
  · extract_lets u
    have hu : P u := hP.countPort p _ (hP.port p _ (by simp) hs)
    split
    · exact hu
    · exact hP.dispose _ p _ hu

theorem Kept.losePort (p : Port) (hs : P s) : P (s.losePort p) :=
  hP.changePort p _ (hP.port p _ id (hP.emptyHolder p (hP.disposeQueues p
    (hP.cutTransmission p (hP.abandonReception p hs)))))

theorem Kept.bringUp (p : Port) (hs : P s) : P (s.bringUp p) := by
  have h : P (((s.modPort p fun u => { u with good := 0, bad := 0, qualCount := none }).changePort p .up).raise p) :=
    hP.raise p (hP.changePort p _ (hP.port p _ id hs))
  unfold State.bringUp
  extract_lets waiting u
  split
  · exact hP.completePortControl p _ _ h
  · exact h

theorem Kept.countQualification (p : Port) (hs : P s) : P (s.countQualification p) := by
  unfold State.countQualification
  split
  · exact hs
  · split
    · exact hP.completePortControl p _ _ (hP.changePort p _ (hP.port p _ id hs))
    · exact hP.port p _ id hs

theorem Kept.checkForUp (p : Port) (good : Bool) (hs : P s) : P (s.checkForUp p good) := by
  unfold State.checkForUp
  extract_lets n
  split
  · exact hP.bringUp p hs
  · exact hP.countQualification p (hP.port p _ id hs)

theorem Kept.checkForLoss (p : Port) (good : Bool) (hs : P s) : P (s.checkForLoss p good) := by
  unfold State.checkForLoss
  extract_lets n
  split
  · exact hP.losePort p hs
  · exact hP.port p _ id hs

theorem Kept.linkCheck (p : Port) (good : Bool) (hs : P s) : P (s.linkCheck p good) := by
  unfold State.linkCheck
  extract_lets u
  have hu : P u := hP.port p _ id hs
  split
  · exact hu
  · exact hu
  · exact hP.checkForUp p good hu
  · exact hP.checkForUp p good hu
  · exact hP.checkForLoss p good hu

theorem Kept.shutPort (p : Port) (hs : P s) : P (s.shutPort p) :=
  hP.changePort p _ (hP.port p _ id (hP.emptyHolder p (hP.disposeQueues p hs)))

theorem Kept.endTransmission (p : Port) (hs : P s) : P (s.endTransmission p) := by
  unfold State.endTransmission
  split
  · exact hs
  next t _ =>
    have hr : P (s.releaseTransmission p t) := by
      unfold State.releaseTransmission
      extract_lets u
      have hu : P u := hP.port p _ (by simp) (hP.countPort p _ hs)
      split
      · exact hu
      · split
        · exact hP.releaseSlot _ (hP.countStream _ _ hu)
        all_goals exact hP.releaseSlot _ hu
    unfold State.afterTransmission
    split
    · exact hP.raise p hr
    · exact hP.completePortControl p _ _ (hP.shutPort p hr)
    all_goals exact hr

/-! ### Requests -/

theorem Kept.controlPort {t : State} {p : Port} {op : PortOp}
    (h : s.controlPort p op = .done t ∨ s.controlPort p op = .waits t) (hs : P s) : P t := by
  have toDisabled : ∀ {s} f st, (∀ u : PortUnit, (f u).tx = u.tx) → P s → P ((s.modPort p f).changePort p st) :=
    fun f st hf hs => hP.changePort p st (hP.port p f (by rw [hf]; exact id) hs)
  unfold State.controlPort State.enablePort State.disablePort at h
  rcases h with h | h <;> (repeat' split at h) <;> cases h
  all_goals first
    | exact hs
    | exact toDisabled _ _ (fun _ => rfl) hs
    | exact hP.shutPort p (hP.abandonReception p hs)
    | exact toDisabled _ _ (fun _ => rfl) (hP.abandonReception p hs)

theorem Kept.clearPorts (hs : P s) : P s.clearPorts := foldl_keeps (fun p => hP.countPort p _) _ hs

theorem Kept.requeue (n moved : Nat) (hs : P s) : P (State.requeue n moved s).1 := by
  induction n generalizing moved s with
  | zero => exact hs
  | succ n ih =>
    unfold State.requeue
    split
    next => exact hs
    next r rest hr =>
      split
      next => exact hs
      next hstop =>
        obtain ⟨-, hd, p, hp, -, -, hq⟩ := (s.requeueStop_eq_none r).mp hstop
        refine ih _ ?_
        simp only [State.requeueOne, hp]
        exact hP.retention _ (.inl (by simp [hr])) (hP.append p (r.toDesc s.timer.cycleCount) hq hd hs)

theorem Kept.flushRecords (hs : P s) : P s.flushRecords :=
  foldl_keeps (fun r => hP.releaseSlot r.slot) _ (hP.retention _ (.inl (Nat.zero_le _)) hs)

theorem Kept.discardQueues (hs : P s) : P s.discardQueues :=
  foldl_keeps (fun p => foldl_keeps (fun c hs => foldl_keeps (fun d => hP.releaseSlot d.slot) _
    (hP.queue p c [] (List.nil_sublist _) hs)) _) _ hs

theorem Kept.prepared {t : State} (h : Prepared s t) (hs : P s) : P t := by
  cases h with
  | nothing => exact hs
  | clearedStreams first count => exact foldl_keeps (fun i => hP.countStream _ _) _ hs
  | clearedPorts => exact hP.clearPorts hs
  | clearedAll => exact hP.mapStreams _ hs
  | clearedBoth => exact hP.clearPorts (hP.mapStreams _ hs)
  | shadow b hc => exact hP.shadow b hc hs
  | cancelled => exact hP.completeCommit _ _ hs
  | portDone p op hp => exact hP.controlPort (.inl hp) hs
  | retrieved r rest hr => exact hP.releaseSlot _ (hP.retention _ (.inl (by simp [hr])) hs)
  | requeued n => exact hP.requeue n 0 hs
  | flushed => exact hP.flushRecords hs
  | discarded => exact foldl_keeps hP.emptyHolder _ (hP.flushRecords (hP.discardQueues hs))

end Traversal

theorem State.earlyGranted_congr {s t : State} (hcontrol : t.mgmt.portControl = s.mgmt.portControl)
    (hconds : t.mgmt.conditions = s.mgmt.conditions) (hgen : t.gen = s.gen) : t.earlyGranted = s.earlyGranted := by
  unfold State.earlyGranted State.earlyOps
  rw [hcontrol, hconds, hgen]

/-- The port side of a PORT CONTROL looks at no early operation and changes none. -/
theorem State.controlPort_early {s t : State} {p : Port} {op : PortOp} (h : s.controlPort p op = .waits t) :
    t.mgmt.portControl = s.mgmt.portControl ∧ t.mgmt.conditions = s.mgmt.conditions ∧ t.gen = s.gen := by
  unfold State.controlPort State.enablePort State.disablePort at h
  (repeat' split at h) <;> cases h <;> simp

section Traversal

variable {P : State → Prop} (hP : Kept P) {s : State}
include hP

theorem Kept.reaction {req : Request} {t : State} (h : Reaction s req t) (hs : P s) : P t := by
  cases h with
  | answered st n d hp => exact hP.answer req st n d (hP.prepared hp hs)
  | condition => exact hP.deliverCondition req hs
  | committed target hc hv =>
    unfold State.acceptCommit
    extract_lets early c u
    have hu : P u := hP.commitTaken c hc hv (by cases h : early <;> simp [c, h]) (by simp +contextual [c, early]) hs
    split
    · exact hP.answer req _ _ _ hu
    · exact hP.setEngine _ hu
  | portWaits p op hn hp =>
    obtain ⟨hcontrol, hconds, hgen⟩ := State.controlPort_early hp
    unfold State.waitPortControl
    extract_lets o u
    have hu : P u := by
      refine hP.controlTaken p o (by rw [hcontrol, hn]) (by simp [o]) (fun h => ?_) (hP.controlPort (.inr hp) hs)
      simp only [o, Bool.and_eq_true] at h
      exact (State.earlyGranted_congr hcontrol hconds hgen).trans h.2
    split
    · exact hP.answer req _ _ _ hu
    · exact hP.setEngine _ hu
  | reset =>
    exact hP.rest rfl (foldl_keeps hP.abandonReception allPorts (hP.setEngine .stopped (hP.answer req .done 0 [] hs)))

theorem Kept.halt (hs : P s) : P s.halt := by
  refine hP.rest rfl (foldl_keeps hP.abandonReception allPorts (foldl_keeps (fun p hs => ?_) allPorts hs))
  unfold State.stopTransmission
  split
  · exact hs
  · extract_lets u
    have hu : P u := hP.port p _ (by simp) hs
    split
    · exact hu
    · exact hP.releaseSlot _ hu

theorem Kept.setPower (w : Power) (hs : P s) : P (s.setPower w) := hP.rest rfl hs

/-- Every command but a reset keeps what the elementary changes keep; a reset's blocks must hold it. -/
theorem Kept.effect {c : Instr} {t : State} (hreset : ∀ f straps epoch, P (s.resetBlocks f straps epoch))
    (h : Effect s c t) (hs : P s) : P t := by
  cases h with
  | unchanged => exact hs
  | powerOnEvent | pinReset | pinPowerOn | deviceReset => exact hreset ..
  | releasedLow | holdLow | holdHigh | holdAgain => exact hP.setPower _ hs
  | haltLow | haltHold => exact hP.setPower _ (hP.halt hs)
  | receptionStart p => exact hP.startReception p hs
  | kindField p k => exact hP.receiveKind p k hs
  | receptionEnd p bytes => exact hP.settle (hP.endReception p bytes hs)
  | linkCheck p good => exact hP.settle (hP.linkCheck p good hs)
  | cycleEnd => exact hP.settle (hP.cycleEnd hs)
  | windowEvent p => exact hP.settle (hP.windowEvent p hs)
  | transmissionEnd p => exact hP.settle (hP.endTransmission p hs)
  | request req held hr => exact hP.settle (hP.reaction (hr.runTaken_reaction req held _) (hP.take hs))

theorem Kept.idleStep (hs : P s) : P s.idleStep := by
  unfold State.idleStep
  split
  · split
    · exact hP.take (hP.rest rfl hs)
    · exact hP.rest rfl hs
  · exact hs

/-- A step keeps what the elementary changes keep, where a reset's blocks hold it. -/
theorem Kept.step {t : State} (hreset : ∀ s f straps epoch, P s → P (s.resetBlocks f straps epoch)) (hs : P s)
    (h : step s = .next t) : P t := by
  obtain ⟨-, rfl⟩ | ⟨c, rest, -, he⟩ := step_cases h
  · exact hP.idleStep hs
  · have hs' : P { s with pending := rest } := hP.rest rfl hs
    exact hP.effect (fun f straps epoch => hreset _ f straps epoch hs') (effect_of_exec he) hs'

end Traversal

end Sys2Proof.Machine
end

section
/-! The invariants that the elementary changes keep: the frame store's form (O50), the bounds of the lists (O51), the
banks (O53), the queues by class (O54) and the law of early operations (O55). -/

namespace Sys2Proof.Machine

open Sys2Proof

/-! ### The frame store's form and the opportunities (R60, R98) -/

theorem kept_memWf : Kept fun s => memWf s.store.mem = true where
  write n bs h := State.memWf_writeSlot h
  store f hf h := by simpa [hf] using h
  rest he h := by rw [he]; exact h
  start p c _ h := by simpa using h
  commitFailed _ _ _ _ _ h := by simpa using h
  controlFailed _ _ _ _ _ h := by simpa using h
  port _ _ _ h := h
  retention _ _ h := h
  queue _ _ _ _ h := h
  append _ _ _ _ h := h
  requests _ _ h := h
  record _ _ _ _ h := h
  conditions _ h := h
  commitTaken _ _ _ _ _ h := h
  commitEnded h := h
  controlTaken _ _ _ _ _ h := h
  controlEnded _ h := h
  shadow _ _ h := h
  exchange _ h := h

/-- A command that takes no opportunities at its end raises none. -/
theorem Effect.opportunities {s t : State} {c : Instr} (h : Effect s c t)
    (hs : s.opportunities = ⟨false, false, false⟩) : t.opportunities = ⟨false, false, false⟩ := by
  cases h with
  | powerOnEvent | pinReset | pinPowerOn | deviceReset => rfl
  | receptionEnd | linkCheck | cycleEnd | windowEvent | transmissionEnd | request => exact State.opportunities_settle _
  | _ => simpa using hs

theorem State.opportunities_idleStep (s : State) : s.idleStep.opportunities = s.opportunities := by
  unfold State.idleStep
  (repeat' split) <;> simp [State.countQuantum]

/-- Settles O50. -/
theorem memoryFormAndOpportunitiesAreKept : Obligations.MemoryFormAndOpportunitiesAreKept := by
  intro s t hmem hopps h
  refine ⟨kept_memWf.step (fun _ _ _ _ h => h) hmem h, ?_⟩
  obtain ⟨-, rfl⟩ | ⟨c, rest, -, he⟩ := step_cases h
  · rw [State.opportunities_idleStep, hopps]
  · exact (effect_of_exec he).opportunities hopps

/-! ### The bounds of the lists (R65, R66, R110, R137, R141) -/

/-- The descriptors in use, port by port. -/
theorem State.descsInUse_eq (s : State) : s.descsInUse =
    ((s.queues.toList.map fun q => (q.toList.map List.length).sum).sum) +
      ((s.ports.toList.countP fun u => u.tx.any Transmission.hasDesc)) := by
  rw [State.descsInUse, List.countP_eq_length_filter]

theorem State.descsInUse_modPort_le {s : State} {p : Port} {f : PortUnit → PortUnit}
    (h : (f (s.port p)).tx.any Transmission.hasDesc = true → (s.port p).tx.any Transmission.hasDesc = true) :
    (s.modPort p f).descsInUse ≤ s.descsInUse := by
  simp only [State.descsInUse_eq, State.modPort_frame]
  refine Nat.add_le_add_left ?_ _
  cases p <;> simp only [State.modPort, Trio.set, Trio.toList, List.countP_cons, State.port, Trio.get] at h ⊢ <;>
    split_ifs <;> simp_all

theorem State.descsInUse_setEgress (s : State) (p : Port) (c : Cls) (q : List Desc) :
    (s.setEgress p c q).descsInUse + (s.egress p c).length = s.descsInUse + q.length := by
  simp only [State.descsInUse_eq, State.setEgress_frame]
  cases p <;> (fin_cases c <;>
    simp [State.setEgress, State.egress, Trio.set, Trio.get, Trio.toList, Quad.set, Quad.get, Quad.toList] <;> omega)

/-- A start moves a descriptor from its queue into flight. -/
theorem State.descsInUse_startDesc_le {s : State} {p : Port} (c : Cls) (h : (s.port p).tx = none) :
    (s.startDesc p c).descsInUse ≤ s.descsInUse := by
  unfold State.startDesc
  split
  next => exact Nat.le_refl _
  next d rest hq =>
    have hleft := s.descsInUse_setEgress p c rest
    rw [hq, List.length_cons] at hleft
    have hstart : ∀ (t : State) (f : PortUnit → PortUnit), (t.port p).tx = none →
        (t.modPort p f).descsInUse ≤ t.descsInUse + 1 := by
      intro t f ht
      simp only [State.descsInUse_eq, State.modPort_frame, Nat.add_assoc]
      refine Nat.add_le_add_left ?_ _
      cases p <;> simp only [State.modPort, Trio.set, Trio.toList, List.countP_cons, List.countP_nil, State.port, Trio.get]
        at ht ⊢ <;> simp only [ht, Option.any_none, Bool.false_eq_true, if_false] <;> split_ifs <;> omega
    have := hstart (s.setEgress p c rest)
      (fun u => { u with tx := some ⟨.desc d, s.refCount, occupation d.length, recheck (s.slotBytes d.slot d.length)⟩ })
      (by simpa using h)
    omega

theorem kept_withinBounds : Kept State.WithinBounds where
  write n bs h := by simpa [State.WithinBounds, State.descsInUse] using h
  store f hf h := h
  rest he h := by rw [he]; exact h
  port p f hf := by
    rintro ⟨hq, hd, hrest⟩
    exact ⟨by simpa using hq, (State.descsInUse_modPort_le hf).trans hd, hrest⟩
  start p c htx := by
    rintro ⟨hq, hd, hrest⟩
    refine ⟨fun x y => ?_, (State.descsInUse_startDesc_le c htx).trans hd, by simpa using hrest⟩
    unfold State.startDesc
    split
    next => exact hq x y
    next d rest he =>
      have hpc := hq p c
      simp only [he, List.length_cons] at hpc
      simp only [State.modPort_views, State.egress_setEgress]
      split_ifs
      · omega
      · exact hq x y
  retention r hr := by
    rintro ⟨hq, hd, hrec, hrest⟩
    exact ⟨hq, hd, hr.elim (·.trans hrec) id, hrest⟩
  queue {s} p c q hsub := by
    rintro ⟨hq, hd, hrest⟩
    have hle := hsub.length_le
    have hin := s.descsInUse_setEgress p c q
    refine ⟨fun x y => ?_, by omega, hrest⟩
    rw [State.egress_setEgress]
    split_ifs
    · exact hle.trans (hq p c)
    · exact hq x y
  append {s} p d hlen hfree := by
    rintro ⟨hq, hd, hrest⟩
    refine ⟨fun x y => ?_, by rw [State.descsInUse_append]; exact hfree, hrest⟩
    rw [State.egress_append]
    split_ifs
    · simpa using hlen
    · exact hq x y
  requests rs hr := by
    rintro ⟨hq, hd, hrec, hreq, hans⟩
    exact ⟨hq, hd, hrec, hr.elim (·.trans hreq) id, hans⟩
  record {s} r t k st := by
    rintro ⟨hq, hd, hrec, hreq, hans⟩
    refine ⟨hq, hd, hrec, hreq, ?_⟩
    by_cases hfull : Config.answerRecords ≤ s.mgmt.answered.length
    · simp only [State.recordAnswer, if_pos hfull, List.length_append, List.length_singleton, List.length_drop]
      omega
    · simp only [State.recordAnswer, if_neg hfull, List.length_append, List.length_singleton]
      simp only [Config.answerRecords] at hfull
      omega
  conditions f h := h
  commitTaken _ _ _ _ _ h := h
  commitEnded h := h
  commitFailed _ _ _ _ _ h := by simpa [State.WithinBounds, State.descsInUse] using h
  controlTaken _ _ _ _ _ h := h
  controlEnded _ h := h
  controlFailed _ _ _ _ _ h := by simpa [State.WithinBounds, State.descsInUse] using h
  shadow _ _ h := h
  exchange _ h := h

theorem State.withinBounds_resetBlocks (s : State) (f : Port → PortState) (straps : BitVec 7) (epoch : Byte) :
    (s.resetBlocks f straps epoch).WithinBounds := by
  refine ⟨fun p c => ?_, ?_, ?_, ?_, ?_⟩
  case refine_1 => simp [State.egress, State.resetBlocks]
  all_goals simp [State.descsInUse, State.resetBlocks, Trio.toList, Trio.all, Quad.toList, Quad.all, PortUnit.initial,
    Management.initial]

/-! ### The banks (R122, R125, R127) -/

theorem kept_banksValid : Kept State.BanksValid where
  write n bs h := by simpa [State.BanksValid] using h
  rest he h := by rw [he]; exact h
  start p c _ h := by simpa [State.BanksValid] using h
  commitTaken c _ hv _ _ h := ⟨h.1, fun _ => hv⟩
  commitEnded h := ⟨h.1, nofun⟩
  commitFailed _ _ _ _ _ h := ⟨by simpa using h.1, by simp⟩
  controlFailed _ _ _ _ _ h := by simpa [State.BanksValid] using h
  shadow _ hc h := ⟨h.1, fun hs => absurd hs (by simp [hc])⟩
  exchange hc h := ⟨h.2 (Option.isSome_iff_ne_none.mpr hc), fun _ => h.1⟩
  store _ _ h := h
  port _ _ _ h := h
  retention _ _ h := h
  queue _ _ _ _ h := h
  append _ _ _ _ h := h
  requests _ _ h := h
  record _ _ _ _ h := h
  conditions _ h := h
  controlTaken _ _ _ _ _ h := h
  controlEnded _ h := h

theorem firstFailure_eq_none_iff (checks : List Bool) : firstFailure checks = none ↔ ∀ c ∈ checks, c = true := by
  rw [firstFailure, Option.map_eq_none_iff, List.find?_eq_none]
  constructor
  · intro h c hc
    obtain ⟨i, hi⟩ := List.mem_iff_getElem?.mp hc
    simpa using h (c, i) (List.mk_mem_zipIdx_iff_getElem?.mpr hi)
  · rintro h ⟨c, i⟩ hc
    simpa using h c (List.mem_iff_getElem?.mpr ⟨i, List.mk_mem_zipIdx_iff_getElem?.mp hc⟩)

theorem firstInvalid_eq_none_iff {α : Type} (table : Byte) (valid : α → Bool) (checks : α → List Bool) (i : Nat)
    (l : List α) : firstInvalid table valid checks i l = none ↔ ∀ e ∈ l, valid e = true → firstFailure (checks e) = none := by
  induction l generalizing i with
  | nil => simp [firstInvalid]
  | cons e l ih =>
    unfold firstInvalid
    by_cases hv : valid e = true
    · cases hf : firstFailure (checks e) <;> simp [hv, hf, ih]
    · simp [hv, ih]

/-- What a reset puts into both banks passes validation (R133). -/
theorem Bank.validate_initial (straps : BitVec 7) : (Bank.initial straps).validate = none := by
  have hbase : firstFailure (Bank.initial straps).base.checks = none := by
    rw [firstFailure_eq_none_iff]
    have hnode : straps.toNat ≤ 253 := by have := straps.isLt; omega
    simp [Bank.initial, BaseRecord.initial, BaseRecord.checks, BaseRecord.stationList, Trio.toList, Quad.toList, Trio.all,
      Quad.all]
    omega
  unfold Bank.validate
  rw [hbase]
  have hwin := (firstInvalid_eq_none_iff 1 WindowEntry.valid (WindowEntry.checks (Bank.initial straps).base) 0
    (Bank.initial straps).windows).mpr fun w hw hv => by
      rw [List.eq_of_mem_replicate hw] at hv; cases hv
  have hstream := (firstInvalid_eq_none_iff 2 StreamEntry.valid StreamEntry.checks 0
    (Bank.initial straps).streams).mpr fun w hw hv => by
      rw [List.eq_of_mem_replicate hw] at hv; cases hv
  simp only [hwin, hstream]

theorem State.banksValid_resetBlocks (s : State) (f : Port → PortState) (straps : BitVec 7) (epoch : Byte) :
    (s.resetBlocks f straps epoch).BanksValid := ⟨Bank.validate_initial straps, nofun⟩

/-- Settles O53. -/
theorem banksStayValid : Obligations.BanksStayValid := fun _ _ hs h =>
  kept_banksValid.step (fun s f straps epoch _ => s.banksValid_resetBlocks f straps epoch) hs h

/-! ### The queues by class (R64, R66) -/

theorem kept_queuedByClass : Kept State.QueuedByClass where
  write n bs h := by simpa [State.QueuedByClass] using h
  rest he h := by rw [he]; exact h
  start {s} p c _ h := by
    unfold State.startDesc
    split
    next => exact h
    next d rest he =>
      refine h.of_mem fun x y e hm => ?_
      simp only [State.modPort_views, State.egress_setEgress] at hm
      split_ifs at hm with hxy
      · rw [hxy.1, hxy.2, he]
        exact List.mem_cons_of_mem d hm
      · exact hm
  queue {s} p c q hsub h := by
    refine h.of_mem fun x y e hm => ?_
    rw [State.egress_setEgress] at hm
    split_ifs at hm with hxy
    · rw [hxy.1, hxy.2]
      exact hsub.mem hm
    · exact hm
  append p d _ _ h := h.append p d
  commitFailed _ _ _ _ _ h := by simpa [State.QueuedByClass] using h
  controlFailed _ _ _ _ _ h := by simpa [State.QueuedByClass] using h
  store _ _ h := h
  port _ _ _ h := h
  retention _ _ h := h
  requests _ _ h := h
  record _ _ _ _ h := h
  conditions _ h := h
  commitTaken _ _ _ _ _ h := h
  commitEnded h := h
  controlTaken _ _ _ _ _ h := h
  controlEnded _ h := h
  shadow _ _ h := h
  exchange _ h := h

theorem State.queuedByClass_resetBlocks (s : State) (f : Port → PortState) (straps : BitVec 7) (epoch : Byte) :
    (s.resetBlocks f straps epoch).QueuedByClass := by
  intro p c d hd
  simp [State.egress, State.resetBlocks] at hd

end Sys2Proof.Machine
end

section
/-! The law of early operations and conditions (O55): an operation that keeps no slot turns into at most one condition. -/

namespace Sys2Proof.Machine

open Sys2Proof

/-- Whether an early operation stands in a slot, as a number (R142). -/
def earlyCount {α : Type} (early : α → Bool) (o : Option α) : Nat := if o.any early then 1 else 0

theorem State.earlyOps_eq (s : State) : s.earlyOps =
    earlyCount PortControl.early s.mgmt.portControl.A + earlyCount PortControl.early s.mgmt.portControl.B +
      earlyCount PortControl.early s.mgmt.portControl.L + earlyCount Commit.early s.gen.commit := by
  change ([s.mgmt.portControl.A, s.mgmt.portControl.B, s.mgmt.portControl.L].filter fun o =>
    o.any PortControl.early).length + earlyCount Commit.early s.gen.commit = _
  simp only [earlyCount, ← List.countP_eq_length_filter, List.countP_cons, List.countP_nil]
  omega

theorem State.earlyOps_setCommit (s : State) (c : Option Commit) :
    (s.setCommit c).earlyOps + earlyCount Commit.early s.gen.commit = s.earlyOps + earlyCount Commit.early c := by
  simp only [State.earlyOps_eq, State.setCommit]
  omega

theorem State.earlyOps_setPortControl (s : State) (p : Port) (o : Option PortControl) :
    (s.setPortControl p o).earlyOps + earlyCount PortControl.early (s.mgmt.portControl.get p) =
      s.earlyOps + earlyCount PortControl.early o := by
  simp only [State.earlyOps_eq, State.setPortControl]
  cases p <;> simp only [Trio.set, Trio.get] <;> omega

@[simp] theorem earlyCount_none {α : Type} (early : α → Bool) : earlyCount early none = 0 := rfl

theorem earlyCount_some {α : Type} (early : α → Bool) (x : α) : earlyCount early (some x) = if early x then 1 else 0 := rfl

theorem State.earlyGranted_iff (s : State) : s.earlyGranted = true ↔ s.mgmt.conditions.length + s.earlyOps < 4 := by
  exact decide_eq_true_iff

/-- The condition table after a failure is filed: one entry more at most, and still one for each requester (R144). -/
theorem State.fileCondition_conditions (s : State) (r : Byte) (t : W16) (k : Byte) (st : Status) (d : Detail) :
    (s.fileCondition r t k st d).mgmt.conditions.length ≤ s.mgmt.conditions.length + 1 ∧
      ((s.mgmt.conditions.map Condition.requester).Nodup →
        ((s.fileCondition r t k st d).mgmt.conditions.map Condition.requester).Nodup) := by
  unfold State.fileCondition
  rw [State.conditions_setConditions]
  split
  next =>
    have hsame : (s.mgmt.conditions.map fun c => if c.requester == r then { c with further := c.further + 1 } else c).map
        Condition.requester = s.mgmt.conditions.map Condition.requester := by
      rw [List.map_map]
      exact List.map_congr_left fun c _ => by simp only [Function.comp]; split <;> rfl
    exact ⟨by simp, fun h => hsame ▸ h⟩
  next hnone =>
    refine ⟨by simp, fun h => ?_⟩
    rw [List.map_append, List.nodup_append]
    simp only [State.holdsCondition, Bool.not_eq_true, List.any_eq_false, beq_iff_eq] at hnone
    refine ⟨h, by simp, ?_⟩
    simp only [List.mem_map, List.mem_singleton, List.map_cons, List.map_nil]
    rintro x ⟨c, hc, rfl⟩ y rfl
    exact hnone c hc

theorem State.earlyOps_fileCondition (s : State) (r : Byte) (t : W16) (k : Byte) (st : Status) (d : Detail) :
    (s.fileCondition r t k st d).earlyOps = s.earlyOps := by simp [State.earlyOps]

/-- An operation that leaves its slot makes room for the condition of its failure. -/
theorem State.EarlyLaw.file {s t : State} (h : t.EarlyLaw) (hconds : t.mgmt.conditions = s.mgmt.conditions)
    (hroom : t.earlyOps + 1 ≤ s.earlyOps) (hs : s.EarlyLaw) (r : Byte) (w : W16) (k : Byte) (st : Status) (d : Detail) :
    (t.fileCondition r w k st d).EarlyLaw := by
  obtain ⟨-, hnodup, hcommit, hcontrol⟩ := h
  obtain ⟨hle, -⟩ := hs
  obtain ⟨hlen, hnd⟩ := t.fileCondition_conditions r w k st d
  refine ⟨?_, hnd hnodup, by simpa using hcommit, by simpa using hcontrol⟩
  rw [State.earlyOps_fileCondition]
  rw [hconds] at hlen
  omega

theorem State.EarlyLaw.setCommit_none {s : State} (h : s.EarlyLaw) : (s.setCommit none).EarlyLaw := by
  obtain ⟨hle, hnodup, -, hcontrol⟩ := h
  have := s.earlyOps_setCommit none
  exact ⟨by simp at this ⊢; omega, hnodup, nofun, hcontrol⟩

theorem State.EarlyLaw.setPortControl_none {s : State} (h : s.EarlyLaw) (p : Port) : (s.setPortControl p none).EarlyLaw := by
  obtain ⟨hle, hnodup, hcommit, hcontrol⟩ := h
  have := s.earlyOps_setPortControl p none
  refine ⟨by simp at this ⊢; omega, hnodup, hcommit, fun q o hq => ?_⟩
  rw [State.portControl_setPortControl, Trio.get_set] at hq
  split_ifs at hq
  exact hcontrol q o hq

theorem kept_earlyLaw : Kept State.EarlyLaw where
  write n bs h := by simpa [State.EarlyLaw, State.earlyOps] using h
  rest he h := by rw [he]; exact h
  start p c _ h := by simpa [State.EarlyLaw, State.earlyOps] using h
  conditions {s} f h := by
    obtain ⟨hle, hnodup, hrest⟩ := h
    have hlen := List.length_filter_le f s.mgmt.conditions
    refine ⟨?_, hnodup.sublist (List.filter_sublist.map _), hrest⟩
    simp only [State.conditions_setConditions]
    exact (Nat.add_le_add_right hlen _).trans hle
  commitTaken {s} c hn _ hslot hearly h := by
    obtain ⟨hle, hnodup, -, hcontrol⟩ := h
    have := s.earlyOps_setCommit (some c)
    rw [State.earlyGranted_iff] at hearly
    rw [hn, earlyCount_none, earlyCount_some] at this
    refine ⟨?_, hnodup, fun x hx => ?_, hcontrol⟩
    · simp only [State.setCommit_frame]
      split_ifs at this with he
      · have := hearly he
        omega
      · omega
    · obtain rfl : c = x := by simpa using hx
      exact hslot
  commitEnded h := h.setCommit_none
  commitFailed {s c} k st d hc hslot h := by
    have hroom := s.earlyOps_setCommit none
    obtain ⟨-, -, hcommit, -⟩ := id h
    rw [hc, earlyCount_none, earlyCount_some, if_pos ((hcommit c hc).mp hslot)] at hroom
    exact State.EarlyLaw.file h.setCommit_none (s := s) rfl (by omega) h ..
  controlTaken {s} p o hn hslot hearly h := by
    obtain ⟨hle, hnodup, hcommit, hcontrol⟩ := h
    have := s.earlyOps_setPortControl p (some o)
    rw [State.earlyGranted_iff] at hearly
    rw [hn, earlyCount_none, earlyCount_some] at this
    refine ⟨?_, hnodup, hcommit, fun q x hx => ?_⟩
    · simp only [State.setPortControl_frame]
      split_ifs at this with he
      · have := hearly he
        omega
      · omega
    · rw [State.portControl_setPortControl, Trio.get_set] at hx
      split_ifs at hx
      · obtain rfl : o = x := by simpa using hx
        exact hslot
      · exact hcontrol q x hx
  controlEnded p h := h.setPortControl_none p
  controlFailed {s p o} k st d ho hslot h := by
    have hroom := s.earlyOps_setPortControl p none
    obtain ⟨-, -, -, hcontrol⟩ := id h
    rw [ho, earlyCount_none, earlyCount_some, if_pos ((hcontrol p o ho).mp hslot)] at hroom
    exact State.EarlyLaw.file (h.setPortControl_none p) (s := s) rfl (by omega) h ..
  store _ _ h := h
  port _ _ _ h := h
  retention _ _ h := h
  queue _ _ _ _ h := h
  append _ _ _ _ h := h
  requests _ _ h := h
  record _ _ _ _ h := h
  shadow _ _ h := h
  exchange _ h := h

/-- Settles O55. -/
theorem earlyLawIsKept : Obligations.EarlyLawIsKept := by
  intro s t hs h
  refine kept_earlyLaw.step (fun s f straps epoch _ => ⟨?_, List.nodup_nil, nofun, fun p o ho => ?_⟩) hs h
  · simp [State.earlyOps_eq, State.resetBlocks, Management.initial, Generation.initial, Trio.all]
  · simp [State.resetBlocks, Management.initial] at ho

end Sys2Proof.Machine
end

section
/-! The gates that stand recorded (O54) and the starts that they allow (O57). -/

namespace Sys2Proof.Machine

open Sys2Proof

/-! ### What the recorded gates depend on -/

/-- The gates, their bounds and what they are computed from stay the same. -/
structure State.SameGates (s t : State) : Prop where
  gates : t.gates = s.gates
  length : t.timer.effLength = s.timer.effLength
  active : t.gen.active = s.gen.active

/-- The gates, the count and the bank in use stay the same. -/
structure State.SameSync (s t : State) : Prop where
  gates : t.gates = s.gates
  timer : t.timer = s.timer
  active : t.gen.active = s.gen.active

theorem State.SameSync.refl (s : State) : s.SameSync s := ⟨rfl, rfl, rfl⟩

theorem State.SameSync.trans {s t u : State} (h : s.SameSync t) (h' : t.SameSync u) : s.SameSync u :=
  ⟨h'.gates.trans h.gates, h'.timer.trans h.timer, h'.active.trans h.active⟩

theorem State.SameSync.sameGates {s t : State} (h : s.SameSync t) : s.SameGates t := ⟨h.gates, by rw [h.timer], h.active⟩

theorem State.GatesCurrent.congr {s t : State} (h : s.GatesCurrent) (hg : s.SameGates t) : t.GatesCurrent := by
  intro p c
  have hopen : t.gateOpen p c = s.gateOpen p c := by
    simp only [State.gateOpen, State.isScheduled, State.base, hg.gates, hg.active]
  have hbound : t.guardBound p c = s.guardBound p c := by
    have hs : t.isScheduled p c = s.isScheduled p c := by simp only [State.isScheduled, State.base, hg.active]
    unfold State.guardBound
    rw [hopen, hs, hg.gates, hg.length]
  rw [hopen, hbound, hg.gates]
  exact h p c

theorem State.gatesCurrent_evaluateEvery (s : State) (mode : ReportMode) : (s.evaluateEvery mode).GatesCurrent :=
  fun p => s.evaluateEvery_currentAt mode p

/-! ### The operations that move the gates -/

theorem State.GatesCurrent.windowEvent {s : State} (h : s.GatesCurrent) (p : Port) : (s.windowEvent p).GatesCurrent := by
  intro q
  by_cases hq : q = p
  · subst hq
    rw [State.windowEvent_eq]
    exact (s.beforeEvaluation q).evaluate_currentAt .changes q
  · exact State.CurrentAt.congr (h q) (by simp) (by simp) (s.gates_windowEvent_other hq)

theorem State.gatesCurrent_cycleEnd (s : State) : s.cycleEnd.GatesCurrent :=
  State.GatesCurrent.congr (s := State.gatesCycleEnd s.base.unlocked s.cycleEndTimer)
    (State.gatesCurrent_evaluateEvery _ _) ⟨by simp [State.cycleEnd], by simp [State.cycleEnd], by simp [State.cycleEnd]⟩

theorem State.GatesCurrent.gatesSyncEvent {s : State} (h : s.GatesCurrent) (was : Bool) :
    (State.gatesSyncEvent was s).GatesCurrent := by
  unfold State.gatesSyncEvent
  split
  · exact State.gatesCurrent_evaluateEvery _ _
  · exact State.gatesCurrent_evaluateEvery _ _
  · exact h

theorem State.GatesCurrent.useSync {s : State} (h : s.GatesCurrent) (rx : Reception) (f : SyncFrame) :
    (s.useSync rx f).GatesCurrent := by
  unfold State.useSync
  extract_lets point m mismatch act u
  cases act with
  | step =>
    unfold State.phaseStep
    extract_lets v
    have hv : v.gatesStep.GatesCurrent := State.gatesCurrent_evaluateEvery _ _
    exact hv.congr ⟨by simp, by simp, by simp⟩
  | correct sync good =>
    exact (State.GatesCurrent.congr h ⟨by simp [u], by simp [u, Timer.correct], by simp [u]⟩).gatesSyncEvent _

/-- What a reception end does to the schedule, the count and the bank in use, it does where its SYNC is used (R6, R23):
`v` is the state that the servo finds. -/
theorem State.endReception_cases (s : State) (p : Port) (bytes : List Byte) : s.SameSync (s.endReception p bytes) ∨
    ∃ v rx f, s.SameSync v ∧ v.syncUsable rx f = true ∧ (v.useSync rx f).SameSync (s.endReception p bytes) := by
  unfold State.endReception
  extract_lets u
  split
  · exact .inl (.refl s)
  next v _ rx _ =>
    extract_lets k
    split
    · exact .inl ⟨by simp [v, u], by simp [v, u], by simp [v, u]⟩
    · unfold State.checkAndHandOn
      extract_lets w
      split
      · exact .inl ⟨by simp [w, v, u], by simp [w, v, u], by simp [w, v, u]⟩
      · exact .inl ⟨by simp [w, v, u], by simp [w, v, u], by simp [w, v, u]⟩
      · have hx : s.SameSync (w.countPort p PortCounters.incReceived) :=
          ⟨by simp [w, v, u], by simp [w, v, u], by simp [w, v, u]⟩
        unfold State.handOn
        split
        · split
          · have copied : ∀ y : State, y.SameSync ((otherPorts p).foldl (State.fillHolder ⟨parseSync bytes, rx.start⟩) y) :=
              fun y => foldl_keeps (P := y.SameSync) (fun q h => h.trans ⟨by simp, by simp, by simp⟩) _ (.refl y)
            unfold State.syncArrival
            extract_lets y
            by_cases hu : (w.countPort p PortCounters.incReceived).syncUsable rx (parseSync bytes) = true
            · exact .inr ⟨_, rx, parseSync bytes, hx, hu, by simpa only [y, if_pos hu] using copied y⟩
            · exact .inl (hx.trans (by simpa only [y, if_neg hu] using copied y))
          · exact .inl (hx.trans ⟨by simp, by simp, by simp⟩)
        · split
          · exact .inl hx
          · exact .inl (hx.trans ⟨by simp, by simp, by simp⟩)

theorem State.GatesCurrent.endReception {s : State} (h : s.GatesCurrent) (p : Port) (bytes : List Byte) :
    (s.endReception p bytes).GatesCurrent := by
  rcases s.endReception_cases p bytes with hk | ⟨v, rx, f, hv, -, ht⟩
  · exact h.congr hk.sameGates
  · exact ((h.congr hv.sameGates).useSync rx f).congr ht.sameGates

theorem State.gatesCurrent_resetBlocks (s : State) (f : Port → PortState) (straps : BitVec 7) (epoch : Byte) :
    (s.resetBlocks f straps epoch).GatesCurrent := by
  intro p c
  have hw : ((s.resetBlocks f straps epoch).gates.get p).windows = [] := by
    simp [State.resetBlocks, GateUnit.initial]
  have hs : (s.resetBlocks f straps epoch).isScheduled p c = false := by
    simp [State.isScheduled, State.base, State.resetBlocks, Generation.initial, Bank.initial, BaseRecord.initial]
  have hg : (s.resetBlocks f straps epoch).gateOpen p c = true := by rw [State.gateOpen_of_windows_nil hw, hs]; rfl
  refine ⟨?_, ?_⟩
  · rw [hg]
    simp [State.resetBlocks, GateUnit.initial]
  · simp [State.guardBound, hs]
    simp [State.resetBlocks, GateUnit.initial]

theorem Effect.gatesCurrent {s t : State} {c : Instr} (h : Effect s c t) (hs : s.GatesCurrent) : t.GatesCurrent := by
  have settled : ∀ {u : State}, u.GatesCurrent → u.settle.GatesCurrent :=
    fun hu => hu.congr ⟨by simp, by simp, by simp⟩
  cases h with
  | powerOnEvent | pinReset | pinPowerOn | deviceReset => exact s.gatesCurrent_resetBlocks _ _ _
  | receptionEnd p bytes => exact settled (hs.endReception p bytes)
  | cycleEnd => exact settled s.gatesCurrent_cycleEnd
  | windowEvent p => exact settled (hs.windowEvent p)
  | request req held hr =>
    have hk := State.SameRun.runTaken hr req held s
    exact settled (hs.congr ⟨hk.gates, by rw [hk.timer], hk.active⟩)
  | _ => exact hs.congr ⟨by simp, by simp, by simp⟩

/-- Settles O54: every event that moves the windows evaluates the gates after it, and `Kept` for the queues. -/
theorem gatesStayCurrent : Obligations.GatesStayCurrent := by
  intro s t h
  refine ⟨fun hs => ?_, fun hs => kept_queuedByClass.step (fun s f st e _ => s.queuedByClass_resetBlocks f st e) hs h⟩
  obtain ⟨-, rfl⟩ | ⟨c, rest, -, he⟩ := step_cases h
  · unfold State.idleStep
    (repeat' split) <;> exact hs.congr ⟨by simp [State.countQuantum], by simp [State.countQuantum],
      by simp [State.countQuantum]⟩
  · exact (effect_of_exec he).gatesCurrent hs

/-! ### Starts (R86, R98 to R100) -/

/-- What holds of a transmission that the arbiter of port `p` starts. -/
def State.Started (s : State) (p : Port) (tr : Transmission) : Prop :=
  (s.port p).state = .up ∧ tr.start = s.refCount ∧ ∀ d, tr.sending = .desc d →
    (s.gates.get p).gate.get d.cls = true ∧
    (∀ b, (s.gates.get p).bound.get d.cls = some b → s.positionNow + tr.occupation ≤ b) ∧
    tr.occupation = (d.length + 12) * 10

theorem State.Started.congr {s t : State} {p : Port} {tr : Transmission} (h : s.Started p tr)
    (hstate : (t.port p).state = (s.port p).state) (href : t.refCount = s.refCount) (hgates : t.gates = s.gates)
    (htimer : t.timer = s.timer) : t.Started p tr := by
  simpa only [State.Started, State.positionNow, hstate, href, hgates, htimer] using h

theorem passesGuard_some {position n b : Nat} (h : passesGuard position n (some b) = true) :
    position + occupation n ≤ b := of_decide_eq_true h

/-- The head of an eligible queue passes the gate and the guard bound of the queue's class (R99). -/
theorem State.eligible_cons {s : State} {p : Port} {c : Cls} (h : s.eligible p c = true) :
    ∃ d rest, s.egress p c = d :: rest ∧ (s.gates.get p).gate.get c = true ∧
      ∀ b, (s.gates.get p).bound.get c = some b → s.positionNow + occupation d.length ≤ b := by
  unfold State.eligible at h
  split at h
  next => cases h
  next d rest hq =>
    rw [Bool.and_eq_true] at h
    exact ⟨d, rest, hq, h.1, fun b hb => passesGuard_some (hb ▸ h.2)⟩

/-- A queue that the arbiter chooses is eligible (R99, R106). -/
theorem State.eligible_of_choose {s : State} {p : Port} {c : Cls} (h : s.choose p = .queue c) : s.eligible p c = true := by
  unfold State.choose State.chooseFree State.chooseDrain at h
  split at h
  next =>
    split at h
    · cases h
    · split at h
      next e he =>
        obtain rfl : e = c := by simpa using h
        exact List.find?_some he
      next => cases h
  next =>
    split at h
    · cases h
    · split at h
      next he =>
        obtain rfl := Choice.queue.inj h
        simp only [Bool.and_eq_true] at he
        exact he.2
      next => cases h

/-- A transmission on a port after its arbiter was there before, or has started. -/
theorem State.tx_arbitrate {s : State} {p : Port} {tr : Transmission} (hc : s.QueuedByClass)
    (h : ((s.arbitrate p).port p).tx = some tr) : (s.port p).tx = some tr ∨ s.Started p tr := by
  unfold State.arbitrate at h
  split at h
  next hup =>
    have hup : (s.port p).state = .up := by
      rw [Bool.and_eq_true] at hup
      exact of_decide_eq_true hup.1
    split at h
    next => exact .inl h
    next =>
      unfold State.startSync at h
      split at h
      next => exact .inl h
      next =>
        rw [State.port_modPort_same] at h
        obtain rfl := Option.some.inj h
        exact .inr ⟨hup, rfl, nofun⟩
    next c hch =>
      obtain ⟨d, rest, hq, hgate, hbound⟩ := State.eligible_cons (State.eligible_of_choose hch)
      have hcls : d.cls = c := hc p c d (by simp [hq])
      simp only [State.startDesc, hq, State.port_modPort_same] at h
      obtain rfl := Option.some.inj h
      refine .inr ⟨hup, rfl, fun e he => ?_⟩
      obtain rfl := Sending.desc.inj he
      rw [hcls]
      exact ⟨hgate, hbound, rfl⟩
  next => exact .inl h

theorem State.tx_takeOpportunity {s : State} {p : Port} {tr : Transmission} (q : Port) (hc : s.QueuedByClass)
    (h : ((s.takeOpportunity q).port p).tx = some tr) : (s.port p).tx = some tr ∨ s.Started p tr := by
  by_cases hq : p = q
  · subst hq
    unfold State.takeOpportunity at h
    split at h
    · refine (State.tx_arbitrate (s := s.lower p) hc h).imp (by simpa using ·) fun hst => ?_
      exact hst.congr (by simp) (by simp) (by simp) (by simp)
    · exact .inl h
  · exact .inl (by rwa [(s.takeOpportunity_other hq).1] at h)

/-- Whatever is in flight at the end of a command was in flight before its opportunities were taken, or has started. -/
theorem State.tx_settle {s : State} {p : Port} {tr : Transmission} (hc : s.QueuedByClass)
    (h : (s.settle.port p).tx = some tr) : (s.port p).tx = some tr ∨ s.Started p tr := by
  have hA := kept_queuedByClass.takeOpportunity .A hc
  have hB := kept_queuedByClass.takeOpportunity .B hA
  rcases State.tx_takeOpportunity .L hB h with h | h
  · rcases State.tx_takeOpportunity .B hA h with h | h
    · exact State.tx_takeOpportunity .A hc h
    · exact .inr (h.congr (by simp) (by simp) (by simp) (by simp))
  · exact .inr (h.congr (by simp) (by simp) (by simp) (by simp))

/-! ### Nothing else starts a transmission -/

theorem State.tx_cutTransmission (s : State) (p q : Port) :
    ((s.cutTransmission p).port q).tx = if q = p then none else (s.port q).tx := by
  unfold State.cutTransmission
  split
  next hn =>
    split_ifs with h
    · rw [h, hn]
    · rfl
  next =>
    extract_lets u
    have hu : (u.port q).tx = if q = p then none else (s.port q).tx := by
      simp only [u, State.countPort_frame, State.port_modPort]
      split_ifs <;> rfl
    split
    · exact hu
    · simpa using hu

theorem State.tx_losePort (s : State) (p q : Port) :
    ((s.losePort p).port q).tx = if q = p then none else (s.port q).tx := by
  have h := (s.abandonReception p).tx_cutTransmission p q
  simpa [State.losePort] using h

/-- A link check leaves every transmission as it is, but for the one of a port that it takes DOWN (R10, R11). -/
theorem State.tx_linkCheck (s : State) (p q : Port) (good : Bool) : ((s.linkCheck p good).port q).tx = (s.port q).tx ∨
    (q = p ∧ good = false ∧ (s.port p).state = .up ∧ ((s.linkCheck p good).port p).state = .down ∧
      ((s.linkCheck p good).port q).tx = none) := by
  unfold State.linkCheck
  extract_lets u
  split
  case h_5 hup =>
    unfold State.checkForLoss
    extract_lets n
    split
    next hn =>
      by_cases hq : q = p
      · have hgood : good = false := by
          cases good <;> simp [n, Config.checksInARow] at hn ⊢
        refine .inr ⟨hq, hgood, hup, ?_, by rw [State.tx_losePort, if_pos hq]⟩
        simp [State.losePort, State.changePort]
      · exact .inl (by rw [State.tx_losePort, if_neg hq]; simp [u])
    next => exact .inl (by simp [u])
  all_goals exact .inl (by simp [u])

/-- The end of a transmission takes that one alone (R102). -/
theorem State.tx_endTransmission (s : State) (p q : Port) :
    ((s.endTransmission p).port q).tx = if q = p then none else (s.port q).tx := by
  unfold State.endTransmission
  split
  next hn =>
    split_ifs with h
    · rw [h, hn]
    · rfl
  next t _ =>
    have hr : ((s.releaseTransmission p t).port q).tx = if q = p then none else (s.port q).tx := by
      unfold State.releaseTransmission
      extract_lets u
      have hu : (u.port q).tx = if q = p then none else (s.port q).tx := by
        simp only [u, State.port_modPort]
        split_ifs <;> simp
      split
      · exact hu
      · split <;> simpa using hu
    simpa using hr

/-- What is in flight after a command was in flight before it, or has started. -/
theorem Effect.tx {s t : State} {c : Instr} {p : Port} {tr : Transmission} (h : Effect s c t) (hs : s.QueuedByClass)
    (ht : (t.port p).tx = some tr) : (s.port p).tx = some tr ∨ t.Started p tr := by
  have settled : ∀ {u : State}, u.QueuedByClass → ((u.port p).tx = some tr → (s.port p).tx = some tr) →
      (u.settle.port p).tx = some tr → (s.port p).tx = some tr ∨ u.settle.Started p tr := fun hc hu ht =>
    (State.tx_settle hc ht).imp hu fun h => h.congr (by simp) (by simp) (by simp) (by simp)
  have hP := kept_queuedByClass
  cases h with
  | powerOnEvent | pinReset | pinPowerOn | deviceReset => cases p <;> cases ht
  | haltLow | haltHold =>
    rw [show ((s.halt.setPower _).port p).tx = none by simp [State.port_halt]] at ht
    cases ht
  | receptionEnd q bytes => exact settled (hP.endReception q bytes hs) (by simp) ht
  | linkCheck q good =>
    refine settled (hP.linkCheck q good hs) (fun h => ?_) ht
    rcases s.tx_linkCheck q p good with heq | ⟨-, -, -, -, hnone⟩
    · rwa [heq] at h
    · rw [hnone] at h
      cases h
  | cycleEnd => exact settled (hP.cycleEnd hs) (by simp) ht
  | windowEvent q => exact settled (hP.windowEvent q hs) (by simp) ht
  | transmissionEnd q =>
    refine settled (hP.endTransmission q hs) (fun h => ?_) ht
    rw [State.tx_endTransmission] at h
    split_ifs at h
    exact h
  | request req held hr =>
    have hk := State.SameRun.runTaken hr req held s
    exact settled (hP.reaction (hr.runTaken_reaction req held _) (hP.take hs)) (by rw [hk.tx]; exact id) ht
  | _ => exact .inl (by simpa using ht)

/-- Settles O57: by `Effect.tx`. -/
theorem framesStartOnlyThroughOpenGates : Obligations.FramesStartOnlyThroughOpenGates := by
  intro s t c p tr hs h ht hnew
  exact ((effect_of_exec h).tx hs ht).resolve_left hnew

end Sys2Proof.Machine
end

section
/-! The ranges of the cycle timer and of the count (O51). -/

namespace Sys2Proof.Machine

open Sys2Proof

/-! ### The timer's own ranges (R22, R29, R30) -/

/-- The ranges of `State.TimerInRange`, of a timer by itself. -/
def Timer.InRange (t : Timer) : Prop :=
  -32767 ≤ t.trim ∧ t.trim ≤ 32767 ∧ -255 ≤ t.residue ∧ t.residue ≤ 255 ∧ t.good ≤ 8 ∧ t.missed ≤ 65535

theorem State.timerInRange_iff (s : State) : s.TimerInRange ↔ s.timer.InRange := Iff.rfl

theorem Timer.InRange.congr {t u : Timer} (h : t.InRange) (htrim : u.trim = t.trim) (hres : u.residue = t.residue)
    (hgood : u.good = t.good) (hmissed : u.missed = t.missed) : u.InRange := by
  simpa only [Timer.InRange, htrim, hres, hgood, hmissed] using h

theorem State.timer_changeSync (s : State) (st : SyncState) : (s.changeSync st).timer = { s.timer with sync := st } := by
  unfold State.changeSync
  split
  next h => rw [← h]
  next => simp

theorem Timer.inRange_fixLength {t : Timer} (l : Nat) (h : t.InRange) : (t.fixLength l).InRange := by
  obtain ⟨h1, h2, h3, h4, h5, h6⟩ := h
  have hlo := Int.lt_tmod_of_pos (t.residue + t.trim) (b := 256) (by decide)
  have hhi := Int.tmod_lt_of_pos (t.residue + t.trim) (b := 256) (by decide)
  rw [Int.tmod_def] at hlo hhi
  refine ⟨h1, h2, ?_, ?_, h5, h6⟩ <;> simp only [Timer.fixLength] <;> omega

theorem missedOutcome_inRange (limit : Nat) (sync : SyncState) {good missed : Nat} (hg : good ≤ 8) (hm : missed ≤ 65535) :
    (missedOutcome limit sync good missed).2.1 ≤ 8 ∧ (missedOutcome limit sync good missed).2.2 ≤ 65535 := by
  unfold missedOutcome
  (repeat' split) <;> simp [hg, hm]

theorem State.timer_accountMissed_inRange {s : State} (h : s.timer.InRange) : s.accountMissed.timer.InRange := by
  obtain ⟨h1, h2, h3, h4, h5, h6⟩ := h
  unfold State.accountMissed
  split
  · exact ⟨h1, h2, h3, h4, h5, h6⟩
  · extract_lets o
    obtain ⟨hg, hm⟩ := missedOutcome_inRange s.base.holdoverLimit.toNat s.timer.sync h5
      (Nat.min_le_left Config.missedMax (s.timer.missed + 1))
    rw [State.timer_changeSync]
    exact ⟨h1, h2, h3, h4, hg, hm⟩

theorem State.missed_takeBaseIntoUse_le (s : State) (old : BaseRecord) :
    (s.takeBaseIntoUse old).timer.missed ≤ s.timer.missed := by
  unfold State.takeBaseIntoUse
  extract_lets u
  have hu : u.timer.missed = s.timer.missed := by
    unfold u
    split <;> rfl
  split
  · simp [State.timer_changeSync]
  · exact hu.le

/-- What a round start does (R126): nothing, a swap, or the failure of the commit. -/
theorem State.roundStart_cases (s : State) : s.roundStart = s ∨ (s.gen.commit ≠ none ∧ s.roundStart = s.swap) ∨
    ∃ r, s.roundStart = s.failCommit .notSynced r := by
  unfold State.roundStart
  split
  next => exact .inl rfl
  next c hc =>
    split
    · split
      · exact .inr (.inl ⟨by simp [hc], rfl⟩)
      · split
        · exact .inl rfl
        next r _ => exact .inr (.inr ⟨r, rfl⟩)
    · exact .inl rfl

/-- A swap leaves the missed count, or clears it (R35). -/
theorem State.missed_roundStart_le (s : State) : s.roundStart.timer.missed ≤ s.timer.missed := by
  rcases s.roundStart_cases with h | ⟨-, h⟩ | ⟨r, h⟩ <;> rw [h]
  · simpa [State.swap] using
      (s.exchangeBanks.mapStreams fun st => { st with expectation := none }).missed_takeBaseIntoUse_le s.base
  · simp

theorem State.timer_cycleEnd (s : State) : s.cycleEnd.timer = s.cycleEndTimer.timer := by simp [State.cycleEnd]

/-- The state of a cycle end after its steps 1 to 5 (R20). -/
def State.counted (s : State) : State := (s.modTimer (Timer.count s.base.cyclesPerRound.toNat)).accountMissed

theorem State.timer_cycleEndTimer (s : State) : s.cycleEndTimer.timer =
    s.counted.atRoundStart.timer.fixLength s.counted.atRoundStart.base.cycleLength.toNat := rfl

theorem State.timer_cycleEnd_inRange {s : State} (h : s.timer.InRange) : s.cycleEnd.timer.InRange := by
  have hc : s.counted.timer.InRange :=
    State.timer_accountMissed_inRange (s := s.modTimer _) (h.congr rfl rfl rfl rfl)
  rw [State.timer_cycleEnd, State.timer_cycleEndTimer]
  refine Timer.inRange_fixLength _ ?_
  unfold State.atRoundStart
  split
  · obtain ⟨h1, h2, h3, h4, h5, h6⟩ := hc
    exact ⟨by simpa using h1, by simpa using h2, by simpa using h3, by simpa using h4, by simpa using h5,
      s.counted.missed_roundStart_le.trans h6⟩
  · exact hc

theorem servoAct_good_le {sync : SyncState} {good g : Nat} {band : Band} {st : SyncState} (hg : good ≤ 8)
    (h : servoAct sync good band = .correct st g) : g ≤ 8 := by
  unfold servoAct Config.lockCount at h
  (repeat' split at h) <;> cases h <;> omega

/-- What the servo leaves in the timer at a correction (R26). -/
theorem State.timer_servoCorrect (s : State) (err : Int) (sync : SyncState) (good : Nat) :
    (s.servoCorrect err sync good).timer = { s.timer.correct err with good := good, sync := sync } := by
  have h := State.timer_changeSync (s.modTimer fun t => { t.correct err with good := good }) sync
  simpa [State.servoCorrect] using h

/-- What a phase step leaves in the timer (R27). -/
theorem State.timer_phaseStep (s : State) (point : W16 × Nat × Nat) (n : Nat) :
    (s.phaseStep point n).timer = { s.timer.land s.base point n with good := 0, sync := .acquiring } := by
  have h := State.timer_changeSync (s.modTimer fun t => { t.land s.base point n with good := 0 }) .acquiring
  simpa [State.phaseStep] using h

theorem Timer.inRange_land {t : Timer} (h : t.InRange) (b : BaseRecord) (point : W16 × Nat × Nat) (n : Nat)
    (st : SyncState) : Timer.InRange { t.land b point n with good := 0, sync := st } := by
  obtain ⟨h1, h2, -, -, -, h6⟩ := h
  exact ⟨h1, h2, by simp [Timer.land], by simp [Timer.land], Nat.zero_le 8, h6⟩

theorem State.timer_useSync_inRange {s : State} (h : s.timer.InRange) (rx : Reception) (f : SyncFrame) :
    (s.useSync rx f).timer.InRange := by
  obtain ⟨h1, h2, h3, h4, h5, h6⟩ := h
  unfold State.useSync
  extract_lets point m mismatch act u
  rcases hact : act with - | ⟨sync, good⟩
  · rw [State.timer_phaseStep]
    exact Timer.inRange_land (t := u.timer) ⟨h1, h2, h3, h4, h5, Nat.zero_le _⟩ ..
  · rw [State.timer_servoCorrect]
    refine ⟨?_, ?_, h3, h4, servoAct_good_le h5 hact, Nat.zero_le _⟩ <;>
      simp only [Timer.correct, clampTrim, Config.trimMax] <;> omega

theorem State.TimerInRange.endReception {s : State} (h : s.TimerInRange) (p : Port) (bytes : List Byte) :
    (s.endReception p bytes).TimerInRange := by
  rw [State.timerInRange_iff] at h ⊢
  rcases s.endReception_cases p bytes with hk | ⟨v, rx, f, hv, -, ht⟩
  · rw [hk.timer]
    exact h
  · rw [ht.timer]
    exact State.timer_useSync_inRange (hv.timer ▸ h) rx f

theorem Timer.inRange_initial : Timer.initial.InRange := by
  unfold Timer.InRange
  decide

theorem Effect.timerInRange {s t : State} {c : Instr} (h : Effect s c t) (hs : s.TimerInRange) : t.TimerInRange := by
  rw [State.timerInRange_iff] at hs ⊢
  cases h with
  | powerOnEvent | pinReset | pinPowerOn | deviceReset => exact Timer.inRange_initial
  | receptionEnd p bytes =>
    have h : (s.endReception p bytes).timer.InRange := State.TimerInRange.endReception hs p bytes
    simpa using h
  | cycleEnd =>
    have h := State.timer_cycleEnd_inRange hs
    simpa using h
  | request req held hr => simpa [(State.SameRun.runTaken hr req held s).timer] using hs
  | _ => simpa using hs

/-! ### The ranges of the count (R19, R21, R26) -/

/-- The ranges of `State.CountInRange`, of a timer under a base record. -/
def Timer.CountInRange (t : Timer) (b : BaseRecord) : Prop :=
  t.index < b.cyclesPerRound.toNat ∧ t.position ≤ t.effLength ∧
    3 * b.cycleLength.toNat ≤ 4 * t.effLength + 512 ∧ 4 * t.effLength ≤ 5 * b.cycleLength.toNat + 512 ∧
    ∀ x, t.slew = some x → 4 * x.natAbs < b.cycleLength.toNat

theorem State.countInRange_iff (s : State) : s.CountInRange ↔ s.timer.CountInRange s.base := Iff.rfl

/-- What the count relies on in a base record that passes validation (R125, checks 1, 2 and 5). -/
theorem Bank.base_of_valid {b : Bank} (h : b.validate = none) : 0 < b.base.cycleLength.toNat ∧
    0 < b.base.cyclesPerRound.toNat ∧ 2 * b.base.stepThreshold.toNat < b.base.cycleLength.toNat := by
  have hbase : firstFailure b.base.checks = none := by
    unfold Bank.validate at h
    split at h
    next => cases h
    next hn => exact hn
  rw [firstFailure_eq_none_iff] at hbase
  simp only [BaseRecord.checks, List.forall_mem_cons, Bool.and_eq_true, decide_eq_true_eq] at hbase
  obtain ⟨⟨hl, -⟩, ⟨hn, -⟩, -, -, ⟨-, hstep⟩, -⟩ := hbase
  exact ⟨by omega, hn, hstep⟩

/-- The new cycle's effective length stays within 128 and the slew of L (R21). -/
theorem Timer.countInRange_fixLength {t : Timer} {b : BaseRecord} (h : t.InRange) (hi : t.index < b.cyclesPerRound.toNat)
    (hp : t.position = 0) (hslew : ∀ x, t.slew = some x → 4 * x.natAbs < b.cycleLength.toNat) :
    (t.fixLength b.cycleLength.toNat).CountInRange b := by
  obtain ⟨h1, h2, h3, h4, -, -⟩ := h
  have hq : ((t.residue + t.trim).tdiv 256).natAbs = (t.residue + t.trim).natAbs / 256 := Int.natAbs_tdiv ..
  have hx : 4 * (t.slew.getD 0).natAbs ≤ b.cycleLength.toNat := by
    cases hs : t.slew with
    | none => simp
    | some x => exact (hslew x hs).le
  refine ⟨hi, by simp only [Timer.fixLength, hp]; omega, ?_, ?_, nofun⟩ <;> simp only [Timer.fixLength] <;> omega

theorem Timer.countInRange_land {t : Timer} {b : BaseRecord} (hl : 0 < b.cycleLength.toNat)
    (hn : 0 < b.cyclesPerRound.toNat) (point : W16 × Nat × Nat) (n : Nat) : (t.land b point n).CountInRange b :=
  ⟨Nat.mod_lt _ hn, (Nat.mod_lt _ hl).le, by simp only [Timer.land]; omega, by simp only [Timer.land]; omega, nofun⟩

theorem errorBand_not_beyond {b : BaseRecord} {err : Int} {mismatch : Bool} (h : errorBand b err mismatch ≠ .beyond) :
    err.natAbs ≤ b.stepThreshold.toNat := by
  unfold errorBand at h
  split at h
  next => exact absurd rfl h
  next hn =>
    simp only [Bool.or_eq_true, decide_eq_true_eq, not_or] at hn
    omega

theorem servoAct_beyond (sync : SyncState) (good : Nat) : servoAct sync good .beyond = .step := by
  cases sync <;> rfl

theorem State.countInRange_useSync {s : State} (hb : s.gen.active.validate = none) (h : s.CountInRange) (rx : Reception)
    (f : SyncFrame) : (s.useSync rx f).timer.CountInRange s.base := by
  obtain ⟨hl, hn, hstep⟩ := Bank.base_of_valid hb
  obtain ⟨h1, h2, h3, h4, -⟩ := h
  unfold State.useSync
  extract_lets point m mismatch act u
  rcases hact : act with - | ⟨sync, good⟩
  · rw [State.timer_phaseStep]
    exact Timer.countInRange_land (t := u.timer) hl hn point _
  · rw [State.timer_servoCorrect]
    have herr : m.1.natAbs ≤ s.base.stepThreshold.toNat := errorBand_not_beyond (mismatch := mismatch) fun hbeyond => by
      have : act = .step := by unfold act; rw [hbeyond, servoAct_beyond]
      rw [this] at hact
      cases hact
    refine ⟨h1, h2, h3, h4, fun x hx => ?_⟩
    obtain rfl : m.1.tdiv 2 = x := by simpa [Timer.correct] using hx
    have : 4 * (m.1.tdiv 2).natAbs < s.gen.active.base.cycleLength.toNat := by
      have h2 : (m.1.tdiv 2).natAbs = m.1.natAbs / 2 := Int.natAbs_tdiv ..
      simp only [State.base] at herr
      omega
    exact this

/-! ### The count at a cycle end -/

theorem State.counted_keeps (s : State) : s.counted.gen = s.gen ∧ s.counted.timer.slew = s.timer.slew ∧
    s.counted.timer.position = 0 ∧ s.counted.timer.index =
      (if s.base.cyclesPerRound.toNat ≤ s.timer.index + 1 then 0 else s.timer.index + 1) := by
  simp [State.counted, Timer.count]

/-- A swap keeps a pending slew only where the cycle length stays (R35). -/
theorem State.slew_takeBaseIntoUse {s : State} {old : BaseRecord} {x : Int}
    (h : (s.takeBaseIntoUse old).timer.slew = some x) : s.timer.slew = some x ∧ s.base.cycleLength = old.cycleLength := by
  unfold State.takeBaseIntoUse at h
  extract_lets u at h
  have hu : u.timer.slew = some x := by
    split at h
    · simpa [State.timer_changeSync] using h
    · exact h
  unfold u at hu
  split at hu
  next he => exact ⟨hu, he⟩
  next => simp at hu

/-- What the count relies on at a round start: the bank in use afterwards, with the slew that stays pending. -/
theorem State.roundStart_slew {s : State} {x : Int} (h : s.roundStart.timer.slew = some x) :
    s.timer.slew = some x ∧ s.roundStart.base.cycleLength = s.base.cycleLength := by
  rcases s.roundStart_cases with he | ⟨-, he⟩ | ⟨r, he⟩ <;> rw [he] at h ⊢
  · exact ⟨h, rfl⟩
  · have hslew : ((s.exchangeBanks.mapStreams fun st => { st with expectation := none }).takeBaseIntoUse
        s.base).timer.slew = some x := by simpa [State.swap] using h
    obtain ⟨h1, h2⟩ := State.slew_takeBaseIntoUse hslew
    exact ⟨by simpa using h1, by simpa [State.swap, State.base] using h2⟩
  · exact ⟨by simpa using h, by simp⟩

theorem State.CountInRange.cycleEnd {s : State} (hb : s.BanksValid) (ht : s.TimerInRange) (h : s.CountInRange) :
    s.cycleEnd.CountInRange := by
  obtain ⟨h1, -, -, -, h5⟩ := h
  obtain ⟨hgen, hslew, hpos, hindex⟩ := s.counted_keeps
  have hbase : s.counted.base = s.base := by rw [State.base, hgen, State.base]
  have hc : s.counted.timer.InRange := State.timer_accountMissed_inRange (s := s.modTimer _)
    (Timer.InRange.congr (t := s.timer) ht rfl rfl rfl rfl)
  have hround : s.counted.atRoundStart.timer.InRange := by
    unfold State.atRoundStart
    split
    · obtain ⟨h1, h2, h3, h4, h5, h6⟩ := hc
      exact ⟨by simpa using h1, by simpa using h2, by simpa using h3, by simpa using h4, by simpa using h5,
        s.counted.missed_roundStart_le.trans h6⟩
    · exact hc
  have hbank : s.counted.atRoundStart.gen.active.validate = none := by
    have hcb : s.counted.BanksValid := by rw [State.BanksValid, hgen]; exact hb
    unfold State.atRoundStart
    split
    · exact (kept_banksValid.roundStart hcb).1
    · exact hcb.1
  have hlen : s.cycleEnd.base = s.counted.atRoundStart.base := by
    simp [State.cycleEnd, State.base, State.cycleEndTimer, State.counted]
  rw [State.countInRange_iff, hlen, State.timer_cycleEnd, State.timer_cycleEndTimer]
  refine Timer.countInRange_fixLength hround ?_ ?_ fun x hx => ?_
  · have hpos := (Bank.base_of_valid hbank).2.1
    unfold State.atRoundStart at hpos ⊢
    split
    next h0 => simpa [h0, State.base] using hpos
    next h0 =>
      rw [hbase]
      rw [hindex] at h0 ⊢
      split_ifs at h0 ⊢
      · exact absurd rfl h0
      · omega
  · unfold State.atRoundStart
    split <;> simpa using hpos
  · unfold State.atRoundStart at hx ⊢
    split at hx
    next h0 =>
      obtain ⟨hs, hl⟩ := State.roundStart_slew hx
      rw [if_pos h0, hl, hbase]
      exact h5 x (hslew ▸ hs)
    next h0 =>
      rw [if_neg h0, hbase]
      exact h5 x (hslew ▸ hx)

theorem State.countInRange_resetBlocks (s : State) (f : Port → PortState) (straps : BitVec 7) (epoch : Byte) :
    (s.resetBlocks f straps epoch).CountInRange :=
  ⟨(by decide : 0 < 8), (by decide : 0 ≤ 125000), (by decide : 3 * 125000 ≤ 4 * 125000 + 512),
    (by decide : 4 * 125000 ≤ 5 * 125000 + 512), nofun⟩

theorem State.CountInRange.congr {s t : State} (h : s.CountInRange) (htimer : t.timer = s.timer)
    (hactive : t.gen.active = s.gen.active) : t.CountInRange := by
  simpa only [State.CountInRange, State.base, htimer, hactive] using h

theorem Effect.countInRange {s t : State} {c : Instr} (h : Effect s c t) (hb : s.BanksValid) (ht : s.TimerInRange)
    (hs : s.CountInRange) : t.CountInRange := by
  cases h with
  | powerOnEvent | pinReset | pinPowerOn | deviceReset => exact s.countInRange_resetBlocks ..
  | receptionEnd p bytes =>
    refine State.CountInRange.congr (s := s.endReception p bytes) ?_ (by simp) (by simp)
    rcases s.endReception_cases p bytes with hk | ⟨v, rx, f, hv, -, hu⟩
    · exact hs.congr hk.timer hk.active
    · have hv' := State.countInRange_useSync (hv.active ▸ hb.1) (hs.congr hv.timer hv.active) rx f
      refine State.CountInRange.congr (s := v.useSync rx f) ?_ hu.timer hu.active
      rw [State.countInRange_iff, State.useSync_views]
      exact hv'
  | cycleEnd => exact (hs.cycleEnd hb ht).congr (by simp) (by simp)
  | request req held hr =>
    have hk := State.SameRun.runTaken hr req held s
    exact hs.congr (by simp [hk.timer]) (by simp [hk.active])
  | _ => exact hs.congr (by simp) (by simp)

/-- A quantum passes only while the cycle end is not due (R19). -/
theorem State.CountInRange.idleStep {s : State} (h : s.CountInRange) : s.idleStep.CountInRange := by
  unfold State.idleStep
  split
  next hp =>
    split
    next hd =>
      have hdue : s.cycleEndDue = false := by
        simp only [State.dueEvents, if_pos hp, List.append_eq_nil_iff, ite_eq_right_iff] at hd
        by_contra hc
        exact absurd (hd.1.1.1.2 (by simpa using hc)) (by simp)
      obtain ⟨h1, h2, hrest⟩ := h
      have hpos : s.timer.position < s.timer.effLength := by simpa [State.cycleEndDue] using hdue
      exact State.CountInRange.congr (s := s.countQuantum) ⟨h1, hpos, hrest⟩ (by simp) (by simp)
    next => exact h
  next => exact h

/-- Settles O51. -/
theorem boundsAndRangesAreKept : Obligations.BoundsAndRangesAreKept := by
  intro s t h
  refine ⟨fun hs => kept_withinBounds.step (fun s f st e _ => s.withinBounds_resetBlocks f st e) hs h, ?_, ?_⟩
  all_goals
    obtain ⟨-, rfl⟩ | ⟨c, rest, -, he⟩ := step_cases h
  · intro hs
    unfold State.idleStep
    (repeat' split) <;> simpa [State.timerInRange_iff, State.countQuantum, Timer.InRange] using hs
  · exact fun hs => (effect_of_exec he).timerInRange hs
  · exact fun _ _ hs => hs.idleStep
  · exact fun hb ht hs => (effect_of_exec he).countInRange hb ht hs

end Sys2Proof.Machine
end

section
/-! The law of the frame store, with slots in hand. `State.Lawful s hand` is `State.SlotLaw` while an operation is under
way: the slots of `hand` have left the part that held them and belong to the operation. Each operation takes slots in
hand or gives them up, and a step starts and ends with none (R60 to R65). It also follows the bytes of one slot in
flight (R103): no operation writes into it. -/

namespace Sys2Proof.Machine

open Sys2Proof

/-! ### Counting the holds on a slot -/

/-- The slot of a transmission's descriptor. -/
def PortUnit.txSlot (u : PortUnit) : Option Nat :=
  u.tx.bind fun t => match t.sending with | .desc d => some d.slot | .sync _ => none

/-- The slot of a reception. -/
def PortUnit.rxSlot (u : PortUnit) : Option Nat := u.rx.bind Reception.slot

/-- The holds of a port unit on a slot. -/
def PortUnit.holds (u : PortUnit) (n : Nat) : Nat := u.rxSlot.toList.count n + u.txSlot.toList.count n

/-- The holds of a port's queues on a slot. -/
def queuesHold (q : Quad (List Desc)) (n : Nat) : Nat := (q.toList.map fun ds => (ds.map Desc.slot).count n).sum

theorem count_filterMap_trio {α : Type} (f : α → Option Nat) (t : Trio α) (n : Nat) :
    (t.toList.filterMap f).count n = (f t.A).toList.count n + (f t.B).toList.count n + (f t.L).toList.count n := by
  simp only [Trio.toList, List.filterMap_cons, List.filterMap_nil]
  cases f t.A <;> cases f t.B <;> cases f t.L <;> simp [List.count_cons] <;> omega

/-- The holds on a slot, block by block. -/
theorem State.count_holders (s : State) (n : Nat) : s.holders.count n =
    (s.ports.A.holds n + s.ports.B.holds n + s.ports.L.holds n) +
    (queuesHold s.queues.A n + queuesHold s.queues.B n + queuesHold s.queues.L n) +
    (s.retention.records.map Record.slot).count n + s.requestSlots.count n := by
  have hq : (s.queues.toList.flatMap fun q => q.toList.flatMap fun ds => ds.map Desc.slot).count n =
      queuesHold s.queues.A n + queuesHold s.queues.B n + queuesHold s.queues.L n := by
    simp only [Trio.toList, Quad.toList, queuesHold, List.flatMap_cons, List.flatMap_nil, List.count_append,
      List.map_cons, List.map_nil, List.sum_cons, List.sum_nil, List.count_nil]
    omega
  have hr := count_filterMap_trio (fun u : PortUnit => u.rx.bind Reception.slot) s.ports n
  have ht := count_filterMap_trio PortUnit.txSlot s.ports n
  simp only [State.holders, List.count_append, hq]
  change _ + _ + (s.ports.toList.filterMap PortUnit.txSlot).count n + _ + _ = _
  rw [hr, ht]
  simp only [PortUnit.holds, PortUnit.rxSlot]
  omega

theorem State.holders_modPort (s : State) (p : Port) (f : PortUnit → PortUnit) (n : Nat) :
    (s.modPort p f).holders.count n + (s.port p).holds n = s.holders.count n + (f (s.port p)).holds n := by
  simp only [State.count_holders]
  have : (s.modPort p f).requestSlots = s.requestSlots := rfl
  rw [this]
  cases p <;> simp only [State.modPort, Trio.set, State.port, Trio.get] <;> omega

theorem State.holders_setEgress (s : State) (p : Port) (c : Cls) (q : List Desc) (n : Nat) :
    (s.setEgress p c q).holders.count n + ((s.egress p c).map Desc.slot).count n =
      s.holders.count n + (q.map Desc.slot).count n := by
  simp only [State.count_holders]
  have : (s.setEgress p c q).requestSlots = s.requestSlots := rfl
  rw [this]
  have hquad : ∀ r : Quad (List Desc), queuesHold (r.set c q) n + ((r.get c).map Desc.slot).count n =
      queuesHold r n + (q.map Desc.slot).count n := by
    intro r
    fin_cases c <;> simp only [queuesHold, Quad.set, Quad.get, Quad.toList, List.map_cons, List.map_nil, List.sum_cons,
      List.sum_nil] <;> omega
  have hA := hquad s.queues.A
  have hB := hquad s.queues.B
  have hL := hquad s.queues.L
  cases p <;> simp only [State.setEgress, State.egress, Trio.set, Trio.get] <;> omega

theorem State.holders_setRetention (s : State) (r : Retention) (n : Nat) :
    (State.holders { s with retention := r }).count n + (s.retention.records.map Record.slot).count n =
      s.holders.count n + (r.records.map Record.slot).count n := by
  simp only [State.count_holders]
  have : State.requestSlots { s with retention := r } = s.requestSlots := rfl
  rw [this]
  omega

/-- The slot of the request that the engine executes. -/
def Engine.slots : Engine → List Nat
  | .executing req _ => [req.slot]
  | .idle => []
  | .stopped => []

/-- The slots of outstanding port-control operations. -/
def Management.controlSlots (m : Management) : List Nat := m.portControl.toList.filterMap fun o => o.bind PortControl.slot

/-- The slot of the pending commit. -/
def Generation.commitSlot (g : Generation) : Option Nat := g.commit.bind Commit.slot

theorem State.requestSlots_eq (s : State) : s.requestSlots =
    s.mgmt.requests.map Request.slot ++ s.mgmt.engine.slots ++ s.mgmt.controlSlots ++ s.gen.commitSlot.toList := by
  unfold State.requestSlots
  cases s.mgmt.engine <;> rfl

/-- The holds of the blocks besides the requests. -/
theorem State.holders_of_requests {s t : State} (hp : t.ports = s.ports) (hq : t.queues = s.queues)
    (hr : t.retention = s.retention) (n : Nat) :
    t.holders.count n + s.requestSlots.count n = s.holders.count n + t.requestSlots.count n := by
  simp only [State.count_holders, hp, hq, hr]
  omega

theorem Management.count_controlSlots_set (m : Management) (p : Port) (o : Option PortControl) (n : Nat) :
    (Management.controlSlots { m with portControl := m.portControl.set p o }).count n +
        ((m.portControl.get p).bind PortControl.slot).toList.count n =
      m.controlSlots.count n + (o.bind PortControl.slot).toList.count n := by
  simp only [Management.controlSlots, count_filterMap_trio]
  cases p <;> simp only [Trio.set, Trio.get] <;> omega

/-! ### The law of a frame store with given holds -/

/-- The law of a frame store whose slots have `held` holds, where the holder of a slot that is `sole` is its only one. -/
structure FrameStore.Lawful (f : FrameStore) (held : Nat → Nat) (sole : Nat → Prop) : Prop where
  length : f.count.length = 384
  nodup : f.free.Nodup
  free_lt : ∀ n ∈ f.free, n < 384
  held_lt : ∀ n, held n ≠ 0 → n < 384
  count : ∀ n, n < 384 → f.count.getD n 0 = held n ∧ held n ≤ 2 ∧ (n ∈ f.free ↔ held n = 0)
  sole : ∀ n, sole n → held n = 1

/-- The holds on a slot, counting the slots in hand. -/
def State.held (hand : List Nat) (s : State) (n : Nat) : Nat := hand.count n + s.holders.count n

/-- The slots that a reception or a request holds. -/
def State.Sole (s : State) (n : Nat) : Prop := (∃ p, (s.port p).rxSlot = some n) ∨ n ∈ s.requestSlots

/-- The bytes of the slot in flight on a port stand as they stood. -/
abbrev Flight := Option (Port × Nat × List Host.Cell)

/-- The law of the frame store while an operation has the slots of `hand` (R60, R65), and where a flight is given, the
bytes of its slot are as given while its transmission goes on (R103). -/
structure State.Lawful (g : Flight) (hand : List Nat) (s : State) : Prop where
  store : s.store.Lawful (s.held hand) s.Sole
  kind : ∀ p rx, (s.port p).rx = some rx → rx.slot ≠ none → rx.kind ≠ some kindSync
  flight : ∀ p n m, g = some (p, n, m) → (s.port p).txSlot = some n → ∀ o, o < 512 →
    readByte s.store.mem (slotBase n + o) = readByte m (slotBase n + o)

theorem PortUnit.holds_of_rx {u : PortUnit} {n : Nat} (h : u.rxSlot = some n) : 1 ≤ u.holds n := by
  simp [PortUnit.holds, h]

theorem PortUnit.holds_of_tx {u : PortUnit} {n : Nat} (h : u.txSlot = some n) : 1 ≤ u.holds n := by
  simp [PortUnit.holds, h]

theorem State.holds_le (s : State) (p : Port) (n : Nat) : (s.port p).holds n ≤ s.holders.count n := by
  rw [State.count_holders]
  cases p <;> simp only [State.port, Trio.get] <;> omega

theorem State.count_of_sole {s : State} {n : Nat} (h : s.Sole n) : 1 ≤ s.holders.count n := by
  obtain ⟨p, h⟩ | h := h
  · exact (PortUnit.holds_of_rx h).trans (s.holds_le p n)
  · rw [State.count_holders]
    have := List.count_pos_iff.mpr h
    omega

/-- The law of the frame store is the law with no slot in hand. -/
theorem State.slotLaw_iff {s : State} : s.SlotLaw ↔ s.Lawful none [] := by
  have hheld : ∀ n, s.held [] n = s.holders.count n := by simp [State.held]
  have hmem : ∀ n, s.holders.count n ≠ 0 ↔ n ∈ s.holders := fun n => by simp [List.count_eq_zero]
  have hrx : ∀ p n, (s.port p).rxSlot = some n ↔ ∃ rx, (s.port p).rx = some rx ∧ rx.slot = some n := by
    simp [PortUnit.rxSlot, Option.bind_eq_some_iff]
  constructor
  · rintro ⟨hlen, hnodup, hfree, hheld_lt, hcount, hrecv, hreq⟩
    have one : ∀ n, s.slotCount n = 1 → s.held [] n = 1 := by
      intro n h
      have hn : n < 384 := by
        by_contra hn
        rw [State.slotCount, List.getD_eq_default _ _ (by omega)] at h
        omega
      rw [hheld, ← (hcount n hn).1, h]
    refine ⟨⟨hlen, hnodup, hfree, fun n h => hheld_lt n ((hmem n).mp (by rwa [← hheld])), fun n hn => ?_, ?_⟩,
      fun p rx h hs => ?_, by simp⟩
    · obtain ⟨h1, h2, h3⟩ := hcount n hn
      rw [hheld, ← h1]
      exact ⟨rfl, h2, h3⟩
    · rintro n (⟨p, h⟩ | h)
      · obtain ⟨rx, h, hs⟩ := (hrx p n).mp h
        exact one n (hrecv p rx n h hs).1
      · exact one n (hreq n h)
    · obtain ⟨n, hn⟩ := Option.ne_none_iff_exists'.mp hs
      exact (hrecv p rx n h hn).2
  · rintro ⟨⟨hlen, hnodup, hfree, hheld_lt, hcount, hsole⟩, hkind, -⟩
    have one : ∀ n, s.Sole n → s.slotCount n = 1 := by
      intro n h
      have h1 := hsole n h
      rw [State.slotCount, (hcount n (hheld_lt n (by omega))).1, h1]
    refine ⟨hlen, hnodup, hfree, fun n h => hheld_lt n (by rw [hheld]; exact (hmem n).mpr h), fun n hn => ?_,
      fun p rx n h hn => ⟨one n (.inl ⟨p, (hrx p n).mpr ⟨rx, h, hn⟩⟩), hkind p rx h (by simp [hn])⟩,
      fun n h => one n (.inr h)⟩
    obtain ⟨h1, h2, h3⟩ := hcount n hn
    rw [hheld] at h1 h2 h3
    rw [State.slotCount, h1]
    exact ⟨rfl, h2, h3⟩

section

variable {g : Flight} {hand : List Nat} {s : State}

theorem State.Lawful.held_eq (h : s.Lawful g hand) {n : Nat} (hn : n < 384) : s.slotCount n = s.held hand n :=
  (h.store.count n hn).1

theorem State.Lawful.lt_of_mem (h : s.Lawful g hand) {n : Nat} (hn : n ∈ hand) : n < 384 :=
  h.store.held_lt n (by
    have := List.count_pos_iff.mpr hn
    unfold State.held
    omega)

/-- Slots move between the hand and the blocks, and the frame store stays. -/
theorem State.Lawful.move {t : State} {hand' : List Nat} (h : s.Lawful g hand) (hstore : t.store = s.store)
    (hheld : ∀ n, t.held hand' n = s.held hand n) (hsole : ∀ n, t.Sole n → s.Sole n ∨ s.held hand n = 1)
    (hkind : ∀ p rx, (t.port p).rx = some rx → rx.slot ≠ none → rx.kind ≠ some kindSync)
    (htx : ∀ p n, g.isSome = true → (t.port p).txSlot = some n → (s.port p).txSlot = some n) : t.Lawful g hand' where
  store := by
    obtain ⟨hlen, hnodup, hfree, hlt, hcount, hs⟩ := h.store
    rw [hstore, funext hheld]
    exact ⟨hlen, hnodup, hfree, hlt, hcount, fun n hn => (hsole n hn).elim (hs n) id⟩
  kind := hkind
  flight := fun p n m hg ht => by
    rw [hstore]
    exact h.flight p n m hg (htx p n (by simp [hg]) ht)

/-- What no slot depends on stands the same in two states: the frame store and every block's holds. -/
structure State.SameSlots (s t : State) : Prop where
  store : t.store = s.store
  rx : ∀ p, (t.port p).rx = (s.port p).rx
  tx : ∀ p, (t.port p).txSlot = (s.port p).txSlot
  queues : t.queues = s.queues
  records : t.retention.records = s.retention.records
  requests : t.mgmt.requests = s.mgmt.requests
  engine : t.mgmt.engine = s.mgmt.engine
  control : t.mgmt.portControl = s.mgmt.portControl
  commit : t.gen.commit = s.gen.commit

theorem State.SameSlots.holders {t : State} (h : s.SameSlots t) : t.requestSlots = s.requestSlots ∧
    ∀ n, t.holders.count n = s.holders.count n := by
  have hr : t.requestSlots = s.requestSlots := by
    simp only [State.requestSlots_eq, Management.controlSlots, Generation.commitSlot, h.requests, h.engine, h.control,
      h.commit]
  have hp : ∀ p n, (t.port p).holds n = (s.port p).holds n := by
    intro p n
    rw [PortUnit.holds, PortUnit.holds, PortUnit.rxSlot, PortUnit.rxSlot, h.rx, h.tx]
  refine ⟨hr, fun n => ?_⟩
  have hA := hp .A n
  have hB := hp .B n
  have hL := hp .L n
  rw [State.count_holders, State.count_holders, hr, h.queues, h.records]
  simp only [State.port, Trio.get] at hA hB hL
  rw [hA, hB, hL]

theorem State.Lawful.same {t : State} (h : s.Lawful g hand) (hst : s.SameSlots t) : t.Lawful g hand := by
  obtain ⟨hreq, hcount⟩ := hst.holders
  refine h.move hst.store (fun n => by rw [State.held, State.held, hcount]) (fun n hn => .inl ?_)
    (fun p rx hrx => h.kind p rx (by rw [← hst.rx, hrx])) (fun p n _ ht => by rw [← hst.tx, ht])
  refine hn.imp (fun ⟨p, hp⟩ => ⟨p, ?_⟩) (fun hn => by rwa [← hreq])
  rwa [PortUnit.rxSlot, ← hst.rx]

/-! ### Releases, takes and writes -/

theorem getD_set (l : List Nat) (n m v : Nat) (hn : n < l.length) :
    (l.set n v).getD m 0 = if m = n then v else l.getD m 0 := by
  rw [List.getD_eq_getElem?_getD, List.getElem?_set]
  by_cases h : n = m
  · subst h
    simp [hn]
  · rw [if_neg h, if_neg (Ne.symm h), List.getD_eq_getElem?_getD]

/-- A slot in hand is held otherwise by no reception and no request. -/
theorem State.Lawful.not_sole (h : s.Lawful g (n :: hand)) : ¬ s.Sole n := fun hs => by
  have h1 := h.store.sole n hs
  have h2 := State.count_of_sole hs
  simp only [State.held, List.count_cons_self] at h1
  omega

/-- A slot in hand is given up (R63). -/
theorem State.Lawful.releaseSlot {n : Nat} (h : s.Lawful g (n :: hand)) : (s.releaseSlot n).Lawful g hand := by
  have hns := h.not_sole
  obtain ⟨⟨hlen, hnodup, hfree, hlt, hcount, hsole⟩, hkind, hflight⟩ := h
  have hheld : ∀ m, s.held (n :: hand) m = (if m = n then 1 else 0) + s.held hand m := by
    intro m
    simp only [State.held, List.count_cons, beq_iff_eq, eq_comm (a := n)]
    omega
  have hn : n < 384 := hlt n (by rw [hheld]; simp)
  obtain ⟨hc, hle, hmem⟩ := hcount n hn
  rw [hheld, if_pos rfl] at hc hle hmem
  obtain ⟨k, hk, hk2⟩ : ∃ k, s.held hand n = k ∧ k < 2 := ⟨_, rfl, by omega⟩
  have hfree' : (s.releaseSlot n).store =
      { s.store.setCount n k with free := if k = 0 then s.store.free ++ [n] else s.store.free } := by
    unfold State.releaseSlot State.slotCount
    rw [hc, hk]
    interval_cases k <;> rfl
  have hholders : (s.releaseSlot n).held hand = s.held hand := by
    funext m
    rw [s.releaseSlot_eq n]
    rfl
  refine ⟨?_, ?_, ?_⟩
  · rw [hholders, hfree']
    refine ⟨by simpa [FrameStore.setCount] using hlen, ?_, ?_, fun m hm => hlt m (by rw [hheld]; omega), ?_, ?_⟩
    · split_ifs
      · exact List.nodup_append.mpr ⟨hnodup, by simp, by simpa using fun a ha => ne_of_mem_of_not_mem ha (by simp [hmem])⟩
      · exact hnodup
    · split_ifs
      · simpa [or_imp, forall_and, hn] using hfree
      · exact hfree
    · intro m hm
      obtain ⟨h1, h2, h3⟩ := hcount m hm
      rw [hheld] at h1 h2 h3
      simp only [FrameStore.setCount, getD_set _ _ _ _ (hlen ▸ hn)]
      by_cases e : m = n
      · subst e
        refine ⟨by rw [if_pos rfl, hk], by omega, ?_⟩
        split_ifs with h0
        · simp [h0, hk]
        · simp [hmem, hk, h0]
      · rw [if_neg e] at h1 h2 h3 ⊢
        rw [Nat.zero_add] at h1 h2 h3
        refine ⟨h1, h2, ?_⟩
        split_ifs
        · simpa [e] using h3
        · exact h3
    · intro m hm
      have hm' : s.Sole m := by rwa [s.releaseSlot_eq n] at hm
      rw [← hsole m hm', hheld, if_neg (fun e : m = n => hns (e ▸ hm')), Nat.zero_add]
  · rw [s.releaseSlot_eq n]
    exact hkind
  · intro p m m0 hg ht o ho
    rw [s.releaseSlot_eq n] at ht
    rw [(s.releaseSlot_released n).1]
    exact hflight p m m0 hg ht o ho
/-- The slot at the head of the free list comes into the hand, with one hold (R61). -/
theorem State.Lawful.takeSlot {n : Nat} {t : State} (h : s.Lawful g hand) (ht : s.takeSlot = (some n, t)) :
    t.Lawful g (n :: hand) ∧ t.slotCount n = 1 := by
  unfold State.takeSlot at ht
  split at ht
  · cases ht
  next m rest hf =>
    cases ht
    obtain ⟨⟨hlen, hnodup, hfree, hlt, hcount, hsole⟩, hkind, hflight⟩ := h
    rw [hf] at hnodup hfree hcount
    obtain ⟨hnotin, hrest⟩ := List.nodup_cons.mp hnodup
    have hn : n < 384 := hfree n (by simp)
    have hzero : s.held hand n = 0 := (hcount n hn).2.2.mp (by simp)
    have hheld : ∀ m, State.held (n :: hand) { s with store := { s.store with free := rest, count := s.store.count.set n 1 } } m =
        if m = n then 1 else s.held hand m := by
      intro m
      change (n :: hand).count m + s.holders.count m = if m = n then 1 else hand.count m + s.holders.count m
      simp only [State.held] at hzero
      rw [List.count_cons]
      by_cases e : m = n
      · subst e
        simp only [beq_self_eq_true, if_true]
        omega
      · simp [e, Ne.symm e]
    refine ⟨⟨⟨by simpa using hlen, hrest, fun m hm => hfree m (by simp [hm]), fun m hm => ?_, fun m hm => ?_, fun m hm => ?_⟩,
      hkind, hflight⟩, ?_⟩
    · rw [hheld] at hm
      by_cases e : m = n
      · exact e ▸ hn
      · exact hlt m (by rwa [if_neg e] at hm)
    · obtain ⟨h1, h2, h3⟩ := hcount m hm
      rw [hheld, getD_set _ _ _ _ (hlen ▸ hn)]
      by_cases e : m = n
      · subst e
        simp [hnotin]
      · simp only [if_neg e]
        refine ⟨h1, h2, ?_⟩
        simpa [e] using h3
    · have hm1 := hsole m hm
      rw [hheld, if_neg (fun e : m = n => by rw [e, hzero] at hm1; omega), hm1]
    · simp only [State.slotCount]
      rw [getD_set _ _ _ _ (hlen ▸ hn), if_pos rfl]

/-- Bytes go into a slot that only the operation holds (R60). -/
theorem State.Lawful.writeSlot {n : Nat} (bs : List Byte) (h : s.Lawful g (n :: hand)) (h1 : s.slotCount n = 1) :
    (s.writeSlot n bs).Lawful g (n :: hand) := by
  have hn := h.lt_of_mem (List.mem_cons_self ..)
  rw [h.held_eq hn, State.held, List.count_cons_self] at h1
  obtain ⟨hstore, hkind, hflight⟩ := h
  rw [State.writeSlot, if_pos (show n < Config.slots from hn)]
  refine ⟨⟨hstore.1, hstore.2, hstore.3, hstore.4, hstore.5, hstore.6⟩, hkind, fun p m m0 hg ht o ho => ?_⟩
  have hne : m ≠ n := by
    rintro rfl
    have := (PortUnit.holds_of_tx ht).trans (s.holds_le p m)
    omega
  rw [readByte_writeBytes_other, hflight p m m0 hg ht o ho]
  simp only [slotBase, Config.slotBytes, List.length_take]
  omega

theorem State.slotCount_writeSlot (n m : Nat) (bs : List Byte) : (s.writeSlot n bs).slotCount m = s.slotCount m := by
  simp [State.slotCount]

/-! ### Operations that touch no slot -/

theorem State.SameSlots.trans {s t u : State} (h : s.SameSlots t) (h' : t.SameSlots u) : s.SameSlots u :=
  ⟨h'.store.trans h.store, fun p => (h'.rx p).trans (h.rx p), fun p => (h'.tx p).trans (h.tx p), h'.queues.trans h.queues,
    h'.records.trans h.records, h'.requests.trans h.requests, h'.engine.trans h.engine, h'.control.trans h.control,
    h'.commit.trans h.commit⟩

/-- Everything else may change. -/
theorem State.SameSlots.rest {t : State} (h : t = { s with
    power := t.power, straps := t.straps, refCount := t.refCount, timer := t.timer, streams := t.streams
    gates := t.gates, opportunities := t.opportunities, pending := t.pending
    retention := { s.retention with overflow := t.retention.overflow }
    gen := { t.gen with commit := s.gen.commit }
    mgmt := { t.mgmt with
      requests := s.mgmt.requests, engine := s.mgmt.engine, portControl := s.mgmt.portControl } }) : s.SameSlots t := by
  constructor <;> rw [h] <;> intros <;> rfl

/-- A port unit changes and keeps its reception and what it transmits. -/
theorem State.sameSlots_modPort {p : Port} {f : PortUnit → PortUnit} (hrx : (f (s.port p)).rx = (s.port p).rx)
    (htx : (f (s.port p)).txSlot = (s.port p).txSlot) : s.SameSlots (s.modPort p f) := by
  constructor <;> try rfl
  all_goals
    intro q
    rw [State.port_modPort]
    split
    · subst_vars; assumption
    · rfl

theorem State.sameSlots_countPort (p : Port) (f : PortCounters → PortCounters) : s.SameSlots (s.countPort p f) :=
  State.sameSlots_modPort rfl rfl

theorem State.sameSlots_noticeEvent (k : NoticeKind) : s.SameSlots (s.noticeEvent k) := by
  unfold State.noticeEvent
  split <;> exact .rest rfl

theorem State.sameSlots_changePort (p : Port) (st : PortState) : s.SameSlots (s.changePort p st) :=
  (State.sameSlots_modPort rfl rfl).trans (State.sameSlots_noticeEvent _)

theorem State.sameSlots_changeSync (st : SyncState) : s.SameSlots (s.changeSync st) := by
  unfold State.changeSync
  split
  · exact .rest rfl
  · exact State.SameSlots.trans (t := s.modTimer _) (.rest rfl) (State.sameSlots_noticeEvent _)

theorem State.GatesOnly.sameSlots {t : State} (h : s.GatesOnly t) : s.SameSlots t := by
  rw [h]
  exact .rest rfl

/-! ### Slots move between the hand and the blocks -/

theorem State.Lawful.modPort {hand' : List Nat} {p : Port} {f : PortUnit → PortUnit} (h : s.Lawful g hand)
    (hheld : ∀ n, hand'.count n + (f (s.port p)).holds n = hand.count n + (s.port p).holds n)
    (hrx : ∀ n, (f (s.port p)).rxSlot = some n → (s.port p).rxSlot = some n ∨ s.held hand n = 1)
    (hkind : ∀ rx, (f (s.port p)).rx = some rx → rx.slot ≠ none → rx.kind ≠ some kindSync)
    (htx : ∀ n, g.isSome = true → (f (s.port p)).txSlot = some n → (s.port p).txSlot = some n) :
    (s.modPort p f).Lawful g hand' := by
  refine h.move rfl (fun n => ?_) ?_ (fun q rx hq => ?_) (fun q n hg hq => ?_)
  · have := s.holders_modPort p f n
    have := hheld n
    unfold State.held
    omega
  · rintro n (⟨q, hq⟩ | hn)
    · rw [State.port_modPort] at hq
      split at hq
      · exact (hrx n hq).imp_left fun h => .inl ⟨p, h⟩
      · exact .inl (.inl ⟨q, hq⟩)
    · exact .inl (.inr hn)
  · rw [State.port_modPort] at hq
    split at hq
    · exact hkind rx hq
    · exact h.kind q rx hq
  · rw [State.port_modPort] at hq
    split at hq
    next e => exact e ▸ htx n hg hq
    next => exact hq

/-- A port unit drops its reception, whose slot comes into the hand. -/
theorem State.Lawful.dropRx {p : Port} {f : PortUnit → PortUnit} (h : s.Lawful g hand) (hf : (f (s.port p)).rxSlot = none)
    (hfrx : ∀ rx, (f (s.port p)).rx = some rx → rx.slot = none) (hft : (f (s.port p)).txSlot = (s.port p).txSlot) :
    (s.modPort p f).Lawful g ((s.port p).rxSlot.toList ++ hand) := by
  refine h.modPort (fun n => ?_) (by simp [hf]) (fun rx h1 h2 => absurd (hfrx rx h1) h2) (fun n _ ht => hft ▸ ht)
  rw [PortUnit.holds, PortUnit.holds, hf, hft, List.count_append]
  simp
  omega

/-- A port unit drops its transmission, whose slot comes into the hand. -/
theorem State.Lawful.dropTx {p : Port} {f : PortUnit → PortUnit} (h : s.Lawful g hand) (hf : (f (s.port p)).tx = none)
    (hfrx : (f (s.port p)).rx = (s.port p).rx) : (s.modPort p f).Lawful g ((s.port p).txSlot.toList ++ hand) := by
  have hft : (f (s.port p)).txSlot = none := by simp [PortUnit.txSlot, hf]
  refine h.modPort (fun n => ?_) (fun n hn => .inl ?_) (fun rx hr => h.kind p rx (hfrx ▸ hr)) (by simp [hft])
  · rw [PortUnit.holds, PortUnit.holds, hft, PortUnit.rxSlot, PortUnit.rxSlot, hfrx, List.count_append]
    simp
    omega
  · rwa [PortUnit.rxSlot, hfrx] at hn

theorem State.Lawful.setEgress {hand' : List Nat} {p : Port} {c : Cls} {q : List Desc} (h : s.Lawful g hand)
    (hq : ∀ n, hand'.count n + (q.map Desc.slot).count n = hand.count n + ((s.egress p c).map Desc.slot).count n) :
    (s.setEgress p c q).Lawful g hand' := by
  refine h.move rfl (fun n => ?_) (fun n hn => .inl hn) h.kind (fun _ _ _ ht => ht)
  have := s.holders_setEgress p c q n
  have := hq n
  unfold State.held
  omega

theorem State.Lawful.append {p : Port} {c : Cls} {d : Desc} (h : s.Lawful g (d.slot :: hand)) :
    (s.append p c d).Lawful g hand := by
  refine (h.setEgress (q := s.egress p c ++ [d]) fun n => ?_).same (.rest rfl)
  simp [List.count_cons]
  omega

theorem State.Lawful.setRecords {hand' : List Nat} {rs : List Record} (h : s.Lawful g hand)
    (hr : ∀ n, hand'.count n + (rs.map Record.slot).count n =
      hand.count n + (s.retention.records.map Record.slot).count n) : (s.setRecords rs).Lawful g hand' := by
  refine h.move rfl (fun n => ?_) (fun n hn => .inl hn) h.kind (fun _ _ _ ht => ht)
  have hs : (s.setRecords rs).holders.count n + (s.retention.records.map Record.slot).count n =
      s.holders.count n + (rs.map Record.slot).count n := s.holders_setRetention ⟨rs, s.retention.overflow⟩ n
  have := hr n
  unfold State.held
  omega

/-- The places of requests change, and the slots that leave them are in hand. -/
theorem State.Lawful.requests {hand' : List Nat} {t : State} (h : s.Lawful g hand) (ht : t = { s with
      mgmt := t.mgmt, gen := t.gen })
    (hr : ∀ n, hand'.count n + t.requestSlots.count n = hand.count n + s.requestSlots.count n)
    (hsole : ∀ n, n ∈ t.requestSlots → n ∈ s.requestSlots ∨ s.slotCount n = 1) : t.Lawful g hand' := by
  have hstore : t.store = s.store := by rw [ht]
  have hports : t.ports = s.ports := by rw [ht]
  have hport : t.port = s.port := by unfold State.port; rw [hports]
  refine h.move hstore (fun n => ?_) ?_ (fun p rx hp => h.kind p rx (by rwa [← hport]))
    (fun p n _ hp => by rwa [← hport])
  · have := State.holders_of_requests (s := s) (t := t) hports (by rw [ht]) (by rw [ht]) n
    have := hr n
    unfold State.held
    omega
  · rintro n (⟨p, hp⟩ | hn)
    · exact .inl (.inl ⟨p, by rwa [← hport]⟩)
    · refine (hsole n hn).imp .inr fun h1 => ?_
      have hlt : n < 384 := by
        by_contra hlt
        rw [State.slotCount, List.getD_eq_default _ _ (by have := h.store.length; omega)] at h1
        omega
      rw [← h.held_eq hlt, h1]

/-- A request's slot is held once. -/
theorem State.Lawful.count_of_request {n : Nat} (h : s.Lawful g hand) (hn : n ∈ s.requestSlots) : s.slotCount n = 1 := by
  have h1 := h.store.sole n (.inr hn)
  rw [h.held_eq (h.store.held_lt n (by omega)), h1]

/-! ### Disposals, the gate controller and the arbiter -/

theorem foldl_consumes {α : Type} {f : State → α → State} {slot : α → Nat}
    (hf : ∀ {s : State} {hand : List Nat} x, s.Lawful g (slot x :: hand) → (f s x).Lawful g hand) (l : List α)
    (h : s.Lawful g (l.map slot ++ hand)) : (l.foldl f s).Lawful g hand := by
  induction l generalizing s with
  | nil => exact h
  | cons x l ih => exact ih (hf x h)

theorem State.Lawful.releaseSlot? {o : Option Nat} (h : s.Lawful g (o.toList ++ hand)) :
    (s.releaseSlot? o).Lawful g hand := by
  cases o with
  | none => exact h
  | some n => exact h.releaseSlot

theorem State.Lawful.countPort (p : Port) (f : PortCounters → PortCounters) (h : s.Lawful g hand) :
    (s.countPort p f).Lawful g hand := h.same (State.sameSlots_countPort p f)

theorem State.Lawful.noticeEvent (k : NoticeKind) (h : s.Lawful g hand) : (s.noticeEvent k).Lawful g hand :=
  h.same (State.sameSlots_noticeEvent k)

theorem State.Lawful.changePort (p : Port) (st : PortState) (h : s.Lawful g hand) : (s.changePort p st).Lawful g hand :=
  h.same (State.sameSlots_changePort p st)

theorem State.Lawful.emptyHolder (p : Port) (h : s.Lawful g hand) : (s.emptyHolder p).Lawful g hand :=
  h.same (State.sameSlots_modPort rfl rfl)

theorem State.Lawful.abandonReception (p : Port) (h : s.Lawful g hand) : (s.abandonReception p).Lawful g hand := by
  unfold State.abandonReception
  split
  next => exact h
  next rx hrx =>
    have hslot : (s.port p).rxSlot = rx.slot := by simp [PortUnit.rxSlot, hrx]
    exact (hslot ▸ h.dropRx (f := fun u => { u with rx := none }) rfl (by simp) rfl).releaseSlot?

theorem State.Lawful.retain {r : Record} (h : s.Lawful g (r.slot :: hand)) : (s.retain r).Lawful g hand := by
  have hk : (s.setRecords (s.retention.records ++ [r])).Lawful g hand := by
    refine h.setRecords fun n => ?_
    simp [List.count_cons]
    omega
  unfold State.retain
  extract_lets kept
  split
  · exact hk.noticeEvent _
  · exact hk

theorem State.Lawful.dropCopy {i : Byte} {n : Nat} (h : s.Lawful g (n :: hand)) : (s.dropCopy i n).Lawful g hand :=
  (h.same (t := s.countStream i _) (.rest rfl)).releaseSlot

theorem State.Lawful.dispose {r : Reason} {p : Port} {d : Desc} (h : s.Lawful g (d.slot :: hand)) :
    (State.dispose r p s d).Lawful g hand := by
  unfold State.dispose
  split
  · split
    · split
      · exact h.retain
      · exact (h.same (t := s.overflow) (.rest rfl)).dropCopy
    all_goals exact h.dropCopy
  · exact h.releaseSlot
  · exact (h.countPort p _).releaseSlot

theorem State.Lawful.disposeQueue (p : Port) (c : Cls) (h : s.Lawful g hand) : (State.disposeQueue p s c).Lawful g hand :=
  foldl_consumes (slot := Desc.slot) (fun _ => State.Lawful.dispose) _ (h.setEgress fun n => by
    rw [List.count_append, List.map_nil, List.count_nil]
    omega)

theorem State.Lawful.disposeQueues (p : Port) (h : s.Lawful g hand) : (s.disposeQueues p).Lawful g hand :=
  foldl_keeps (fun c => State.Lawful.disposeQueue p c) _ h

theorem State.Lawful.takeLate {p : Port} {d : Desc} (h : s.Lawful g (d.slot :: hand)) :
    (State.takeLate p s d).Lawful g hand := by
  unfold State.takeLate
  split
  · exact (h.same (t := s.countStream _ _) (.rest rfl)).dispose
  all_goals exact h.dispose

theorem State.Lawful.checkQueue (p : Port) (c : Cls) (h : s.Lawful g hand) : (State.checkQueue p s c).Lawful g hand := by
  have hl : (s.setEgress p c ((s.egress p c).filter fun d => !d.isLate s.timer.cycleCount)).Lawful g
      (((s.egress p c).filter (Desc.isLate s.timer.cycleCount)).map Desc.slot ++ hand) := by
    refine h.setEgress fun n => ?_
    have := ((List.filter_append_perm (Desc.isLate s.timer.cycleCount) (s.egress p c)).map Desc.slot).count_eq n
    rw [List.map_append, List.count_append] at this
    rw [List.count_append]
    omega
  have hd := foldl_consumes (f := State.takeLate p) (fun _ => State.Lawful.takeLate) _ hl
  unfold State.checkQueue
  extract_lets q late u
  split
  · exact hd.same (.rest rfl)
  · exact hd

theorem State.Lawful.latenessCheck (p : Port) (ws : List OpenWindow) (h : s.Lawful g hand) :
    (s.latenessCheck p ws).Lawful g hand := foldl_keeps (fun c => State.Lawful.checkQueue p c) _ h

theorem State.Lawful.closeEvery (check : Bool) (h : s.Lawful g hand) : (s.closeEvery check).Lawful g hand := by
  refine foldl_keeps (fun {s} p hs => ?_) _ h
  have hm : (s.modGates p fun g => { g with windows := [] }).Lawful g hand := hs.same (.rest rfl)
  unfold State.closeAll
  extract_lets ws u
  split
  · exact hm.latenessCheck p ws
  · exact hm

theorem State.Lawful.gatesOnly {t : State} (h : s.Lawful g hand) (ht : s.GatesOnly t) : t.Lawful g hand := h.same ht.sameSlots

theorem State.Lawful.windowEvent (p : Port) (h : s.Lawful g hand) : (s.windowEvent p).Lawful g hand :=
  State.Lawful.gatesOnly (State.Lawful.latenessCheck p _ (h.same (t := s.modGates p _) (.rest rfl)))
    (s.gatesOnly_windowEvent p)

theorem State.Lawful.gatesCycleEnd (old : UnlockedPolicy) (h : s.Lawful g hand) :
    (State.gatesCycleEnd old s).Lawful g hand :=
  ((h.closeEvery _).gatesOnly (State.gatesOnly_openEvery _ _)).gatesOnly (State.gatesOnly_evaluateEvery _ _)

theorem State.Lawful.gatesStep (h : s.Lawful g hand) : s.gatesStep.Lawful g hand :=
  ((h.closeEvery _).gatesOnly (State.gatesOnly_openEvery _ _)).gatesOnly (State.gatesOnly_evaluateEvery _ _)

theorem State.Lawful.gatesSyncEvent (was : Bool) (h : s.Lawful g hand) : (State.gatesSyncEvent was s).Lawful g hand := by
  unfold State.gatesSyncEvent
  split
  · exact (h.closeEvery _).gatesOnly (State.gatesOnly_evaluateEvery _ _)
  · exact (h.gatesOnly (State.gatesOnly_openEvery _ _)).gatesOnly (State.gatesOnly_evaluateEvery _ _)
  · exact h

theorem State.Lawful.startDesc {p : Port} (c : Cls) (h : s.Lawful none hand) (hidle : (s.port p).tx = none) :
    (s.startDesc p c).Lawful none hand := by
  unfold State.startDesc
  split
  next => exact h
  next d rest hq =>
    have hout : (s.setEgress p c rest).Lawful none (d.slot :: hand) :=
      h.setEgress fun n => by simp [hq, List.count_cons]; omega
    refine hout.modPort (fun n => ?_) (fun _ hn => .inl hn) (hout.kind p) (by simp)
    simp [PortUnit.holds, PortUnit.txSlot, PortUnit.rxSlot, hidle, List.count_cons]
    omega

theorem State.Lawful.startSync {p : Port} (h : s.Lawful g hand) (hidle : (s.port p).tx = none) :
    (s.startSync p).Lawful g hand := by
  unfold State.startSync
  split
  · exact h
  · exact h.same (State.sameSlots_modPort rfl (by simp [PortUnit.txSlot, hidle]))

theorem State.Lawful.settle (h : s.Lawful none hand) : s.settle.Lawful none hand := by
  refine foldl_keeps (fun {s} p hs => ?_) _ h
  unfold State.takeOpportunity
  split
  · have hlow : (s.lower p).Lawful none hand := hs.same (.rest rfl)
    unfold State.arbitrate
    split
    next hup =>
      have hidle : ((s.lower p).port p).tx = none := by simp_all
      split
      · exact hlow
      · exact hlow.startSync hidle
      · exact hlow.startDesc _ hidle
    next => exact hlow
  · exact hs

/-! ### Requests and replies -/

theorem State.count_requestSlots (s : State) (n : Nat) : s.requestSlots.count n =
    (s.mgmt.requests.map Request.slot).count n + s.mgmt.engine.slots.count n + s.mgmt.controlSlots.count n +
      s.gen.commitSlot.toList.count n := by
  rw [State.requestSlots_eq]
  simp only [List.count_append]

/-- A request leaves its place, and its slot comes into the hand. -/
theorem State.Lawful.requestEnds {t : State} {o : Option Nat} (h : s.Lawful g hand)
    (ht : t = { s with mgmt := t.mgmt, gen := t.gen })
    (hr : ∀ n, t.requestSlots.count n + o.toList.count n = s.requestSlots.count n) : t.Lawful g (o.toList ++ hand) := by
  refine h.requests ht (fun n => ?_) (fun n hn => .inl ?_)
  · have := hr n
    rw [List.count_append]
    omega
  · have h1 := hr n
    have h2 := List.count_pos_iff.mpr hn
    exact List.count_pos_iff.mp (by omega)

/-- A request takes a place with a slot in hand that nothing else holds. -/
theorem State.Lawful.requestWaits {t : State} {m : Nat} (h : s.Lawful g (m :: hand)) (h1 : s.slotCount m = 1)
    (ht : t = { s with mgmt := t.mgmt, gen := t.gen })
    (hr : ∀ n, t.requestSlots.count n = s.requestSlots.count n + [m].count n) : t.Lawful g hand := by
  refine h.requests ht (fun n => ?_) (fun n hn => ?_)
  · have := hr n
    rw [show m :: hand = [m] ++ hand from rfl, List.count_append]
    omega
  · by_cases e : m = n
    · exact .inr (e ▸ h1)
    · have h2 := hr n
      have h3 := List.count_pos_iff.mpr hn
      rw [List.count_singleton, if_neg (by simpa using e)] at h2
      exact .inl (List.count_pos_iff.mp (by omega))

theorem State.Lawful.setPortControl_none (p : Port) (h : s.Lawful g hand) : (s.setPortControl p none).Lawful g
    (((s.mgmt.portControl.get p).bind PortControl.slot).toList ++ hand) := by
  refine h.requestEnds rfl fun n => ?_
  have := s.mgmt.count_controlSlots_set p none n
  rw [State.count_requestSlots, State.count_requestSlots]
  simp only [State.setPortControl] at this ⊢
  simp at this
  omega

theorem State.Lawful.setCommit_none (h : s.Lawful g hand) :
    (s.setCommit none).Lawful g (s.gen.commitSlot.toList ++ hand) := by
  refine h.requestEnds rfl fun n => ?_
  rw [State.count_requestSlots, State.count_requestSlots]
  simp only [State.setCommit, Generation.commitSlot, Option.bind_none, Option.toList_none, List.count_nil]
  omega

/-- The request that the engine executes comes into the hand. -/
theorem State.Lawful.setEngine_idle {req : Request} {held : Bool} (h : s.Lawful g hand)
    (he : s.mgmt.engine = .executing req held) : (s.setEngine .idle).Lawful g (req.slot :: hand) := by
  refine h.requestEnds (o := some req.slot) rfl fun n => ?_
  rw [State.count_requestSlots, State.count_requestSlots]
  simp only [State.setEngine, he, Engine.slots, Management.controlSlots, Option.toList_some, List.count_nil]
  omega

theorem State.mem_requestSlots_of_executing {req : Request} {held : Bool} (he : s.mgmt.engine = .executing req held) :
    req.slot ∈ s.requestSlots := by
  simp [State.requestSlots_eq, he, Engine.slots]

theorem State.Lawful.appendReply {p : Port} {slot length : Nat} (h : s.Lawful g (slot :: hand)) :
    (s.appendReply p slot length).Lawful g hand := by
  unfold State.appendReply
  split
  · exact State.Lawful.append (d := mgmtDesc slot s.mgmtClass length) h
  all_goals exact (h.countPort p _).releaseSlot

theorem State.Lawful.sendReply {p : Port} {slot : Nat} {r : Reply} (h : s.Lawful g (slot :: hand))
    (h1 : s.slotCount slot = 1) : (s.sendReply p slot r).Lawful g hand :=
  State.Lawful.appendReply (h.writeSlot _ h1)

theorem State.Lawful.recordAnswer {r : Byte} {t : W16} {k : Byte} {st : Status} (h : s.Lawful g hand) :
    (s.recordAnswer r t k st).Lawful g hand := h.same (.rest rfl)

theorem State.releaseSlot_setEngine (n : Nat) (e : Engine) :
    (s.releaseSlot n).setEngine e = (s.setEngine e).releaseSlot n := by
  have hc : (s.setEngine e).slotCount n = s.slotCount n := rfl
  unfold State.releaseSlot
  rw [hc]
  rcases s.slotCount n with - | - | k <;> rfl

theorem State.appendReply_setEngine (p : Port) (n l : Nat) (e : Engine) :
    (s.appendReply p n l).setEngine e = (s.setEngine e).appendReply p n l := by
  have ha : (s.setEngine e).mgmtAnswer p (s.setEngine e).mgmtClass = s.mgmtAnswer p s.mgmtClass := rfl
  unfold State.appendReply
  rw [ha]
  cases s.mgmtAnswer p s.mgmtClass
  case accepted => rfl
  all_goals exact State.releaseSlot_setEngine n e

/-- A reply does not look at the engine. -/
theorem State.engineReply_setEngine (req : Request) (r : Reply) (e : Engine) :
    (s.engineReply req r).setEngine e = (s.setEngine e).engineReply req r := by
  unfold State.engineReply State.sendReply
  rw [State.appendReply_setEngine]
  congr 1
  unfold State.buildReply State.writeSlot
  split <;> rfl

theorem State.Lawful.engineReply {req : Request} {held : Bool} {r : Reply} (h : s.Lawful g hand)
    (he : s.mgmt.engine = .executing req held) : ((s.engineReply req r).setEngine .idle).Lawful g hand := by
  rw [State.engineReply_setEngine]
  exact (h.setEngine_idle he).recordAnswer.sendReply (h.count_of_request (State.mem_requestSlots_of_executing he))

theorem State.Lawful.answer {req : Request} {held : Bool} (st : Status) (n : Nat) (d : List Byte) (h : s.Lawful g hand)
    (he : s.mgmt.engine = .executing req held) : (s.answer req st n d).Lawful g hand := h.engineReply he

theorem State.Lawful.deliverCondition {req : Request} {held : Bool} (h : s.Lawful g hand)
    (he : s.mgmt.engine = .executing req held) : (s.deliverCondition req).Lawful g hand := by
  unfold State.deliverCondition
  exact State.Lawful.engineReply (h.same (t := s.setConditions _) (.rest rfl)) he

theorem State.Lawful.completeOp {r : Byte} {tag : W16} {p : Port} {k : Byte} {o : Option Nat} {st : Status}
    {f : Option Detail} (h : s.Lawful g (o.toList ++ hand)) (h1 : ∀ n, o = some n → s.slotCount n = 1) :
    (s.completeOp r tag p k o st f).Lawful g hand := by
  unfold State.completeOp
  split
  next n => exact (State.Lawful.recordAnswer h).sendReply (h1 n rfl)
  next =>
    split
    · exact State.Lawful.same h (.rest rfl)
    · exact h

theorem State.Lawful.completePortControl (p : Port) (st : Status) (f : Option Detail) (h : s.Lawful g hand) :
    (s.completePortControl p st f).Lawful g hand := by
  unfold State.completePortControl
  split
  next => exact h
  next o ho =>
    have hp := h.setPortControl_none p
    rw [ho] at hp
    refine State.Lawful.completeOp hp fun n hn => h.count_of_request ?_
    have : n ∈ s.mgmt.controlSlots := by
      unfold Management.controlSlots
      refine List.mem_filterMap.mpr ⟨some o, ?_, hn⟩
      rw [← ho]
      cases p <;> simp [Trio.toList, Trio.get]
    simp [State.requestSlots_eq, this]

theorem State.Lawful.completeCommit (st : Status) (f : Option Detail) (h : s.Lawful g hand) :
    (s.completeCommit st f).Lawful g hand := by
  unfold State.completeCommit
  split
  next => exact h
  next c hc =>
    have hslot : s.gen.commitSlot = c.slot := by rw [Generation.commitSlot, hc]; rfl
    refine State.Lawful.completeOp (hslot ▸ h.setCommit_none) fun n hn => h.count_of_request ?_
    simp [State.requestSlots_eq, hslot, hn]

theorem State.Lawful.intake {p : Port} {slot length : Nat} (h : s.Lawful g (slot :: hand)) (h1 : s.slotCount slot = 1) :
    (s.intake p slot length).Lawful g hand := by
  unfold State.intake
  extract_lets req r
  split
  · exact h.sendReply h1
  · split
    · exact h.sendReply h1
    · split
      · exact h.sendReply h1
      · refine h.requestWaits h1 rfl fun n => ?_
        rw [State.count_requestSlots, State.count_requestSlots]
        simp only [State.setRequests, Management.controlSlots, List.map_append, List.map_cons, List.map_nil,
          List.count_append, req, State.requestIn]
        omega

theorem State.Lawful.take (h : s.Lawful g hand) : s.take.Lawful g hand := by
  unfold State.take
  split
  next q rest he hr =>
    refine h.requestEnds (o := none) rfl fun n => ?_
    rw [State.count_requestSlots, State.count_requestSlots]
    simp only [State.setRequests, State.setEngine, he, hr, Engine.slots, Management.controlSlots, List.map_cons,
      List.count_cons, List.count_nil, Option.toList_none]
    omega
  next => exact h

/-! ### Notices and cycle ends -/

theorem State.Lawful.tryNotice (k : NoticeKind) (h : s.Lawful g hand) : (s.tryNotice k).Lawful g hand := by
  unfold State.tryNotice
  split
  · split
    · split
      · exact h
      · split
        · split
          next slot t ht =>
            obtain ⟨hl, h1⟩ := h.takeSlot ht
            exact ((hl.writeSlot _ h1).append (d := mgmtDesc slot _ 32)).same (.rest rfl)
          next => exact h
        all_goals exact h
    · exact h.same (.rest rfl)
  · exact h

theorem State.Lawful.tryNotices (h : s.Lawful g hand) : s.tryNotices.Lawful g hand := by
  unfold State.tryNotices
  split
  · exact h
  · exact foldl_keeps (fun k => State.Lawful.tryNotice k) _ h

theorem State.Lawful.changeSync (st : SyncState) (h : s.Lawful g hand) : (s.changeSync st).Lawful g hand :=
  h.same (State.sameSlots_changeSync st)

theorem State.Lawful.modTimer (f : Timer → Timer) (h : s.Lawful g hand) : (s.modTimer f).Lawful g hand :=
  h.same (.rest rfl)

theorem State.Lawful.mapStreams (f : StreamState → StreamState) (h : s.Lawful g hand) : (s.mapStreams f).Lawful g hand :=
  h.same (.rest rfl)

theorem State.Lawful.takeBaseIntoUse (old : BaseRecord) (h : s.Lawful g hand) :
    (s.takeBaseIntoUse old).Lawful g hand := by
  unfold State.takeBaseIntoUse
  extract_lets u
  have hu : u.Lawful g hand := by
    unfold u
    split
    · exact h
    · exact h.modTimer _
  split
  · exact (hu.modTimer _).changeSync _
  · exact hu

theorem State.Lawful.roundStart (h : s.Lawful g hand) : s.roundStart.Lawful g hand := by
  unfold State.roundStart
  split
  · exact h
  · split
    · split
      · exact ((State.Lawful.takeBaseIntoUse _ (h.same (.rest rfl))).noticeEvent _).completeCommit _ _
      · split
        · exact h
        · exact h.completeCommit _ _
    · exact h

theorem State.Lawful.commitStep (h : s.Lawful g hand) : s.commitStep.Lawful g hand := by
  unfold State.commitStep
  split
  · exact h
  · split
    · exact h
    · split
      · exact h
      · exact h.completeCommit _ _

theorem State.Lawful.cycleEnd (h : s.Lawful g hand) : s.cycleEnd.Lawful g hand := by
  have hm : (s.modTimer (Timer.count s.base.cyclesPerRound.toNat)).accountMissed.Lawful g hand := by
    unfold State.accountMissed
    split
    · exact (h.modTimer _).modTimer _
    · exact ((h.modTimer _).modTimer _).changeSync _
  have ht : s.cycleEndTimer.Lawful g hand := by
    unfold State.cycleEndTimer State.atRoundStart
    refine State.Lawful.modTimer _ ?_
    split
    · exact hm.roundStart
    · exact hm
  exact State.Lawful.tryNotices (State.Lawful.mapStreams _ (ht.gatesCycleEnd _))

theorem State.Lawful.useSync (rx : Reception) (f : SyncFrame) (h : s.Lawful g hand) : (s.useSync rx f).Lawful g hand := by
  unfold State.useSync
  extract_lets point m mismatch act u
  cases act with
  | step => exact (((State.Lawful.modTimer _ (h.modTimer _)).changeSync _).gatesStep).commitStep
  | correct => exact ((State.Lawful.modTimer _ (h.modTimer _)).changeSync _).gatesSyncEvent _

theorem State.sameSlots_fillHolder (x : HeldSync) (p : Port) : s.SameSlots (State.fillHolder x s p) := by
  unfold State.fillHolder
  split
  · refine State.SameSlots.trans (t := (if (s.port p).holder.isSome = true then
      s.countPort p PortCounters.incSyncReplaced else s).modPort p fun u => { u with holder := some x }) ?_ (.rest rfl)
    refine State.SameSlots.trans ?_ (State.sameSlots_modPort rfl rfl)
    split
    · exact State.sameSlots_countPort p _
    · exact .rest rfl
  · exact .rest rfl

theorem State.Lawful.syncArrival (p : Port) (rx : Reception) (f : SyncFrame) (h : s.Lawful g hand) :
    (s.syncArrival p rx f).Lawful g hand := by
  refine foldl_keeps (fun p hs => hs.same (State.sameSlots_fillHolder _ p)) _ ?_
  split
  · exact h.useSync rx f
  · exact h

/-! ### Classification -/

/-- Copies of the frame in a slot have been made of `s`, `r.2` holders of it and all else as it was: each takes a hold from
the hand, whatever the count of the slot is settled at. -/
def State.Copied (slot : Nat) (s : State) (r : State × Nat) : Prop :=
  r.1.store = s.store ∧ ∀ (f : FrameStore) (g : Flight) (hand : List Nat),
    State.Lawful g (List.replicate r.2 slot ++ hand) { s with store := f } → State.Lawful g hand { r.1 with store := f }

/-- Copies made one after another. -/
theorem State.copied_foldl {slot : Nat} {F : State → Port → State × Nat} {step : State × Nat → Port → State × Nat}
    (hstep : ∀ acc p, step acc p = ((F acc.1 p).1, acc.2 + (F acc.1 p).2))
    (hF : ∀ s p, State.Copied slot s (F s p) ∧ (F s p).2 ≤ 1) (ports : List Port) (s : State) :
    State.Copied slot s (ports.foldl step (s, 0)) ∧ (ports.foldl step (s, 0)).2 ≤ ports.length := by
  suffices key : ∀ acc, State.Copied slot s acc →
      State.Copied slot s (ports.foldl step acc) ∧ (ports.foldl step acc).2 ≤ acc.2 + ports.length by
    simpa using key (s, 0) ⟨rfl, fun f g hand h => h⟩
  induction ports with
  | nil => exact fun acc h => ⟨h, Nat.le_refl _⟩
  | cons p ports ih =>
    intro acc h
    obtain ⟨⟨hstore, hlaw⟩, hle⟩ := hF acc.1 p
    have hnext : State.Copied slot s (step acc p) := by
      rw [hstep]
      refine ⟨hstore.trans h.1, fun f g hand hs => hlaw f g hand (h.2 f g _ ?_)⟩
      rwa [List.replicate_add, List.append_assoc] at hs
    obtain ⟨h1, h2⟩ := ih (step acc p) hnext
    refine ⟨h1, h2.trans ?_⟩
    rw [hstep, List.length_cons]
    omega

/-- The count of a slot in hand is set for more holds. -/
theorem State.Lawful.setCount {slot k : Nat} (h : s.Lawful g (slot :: hand)) (h1 : s.slotCount slot = 1)
    (hk : k + 1 ≤ 2) : State.Lawful g (List.replicate (k + 1) slot ++ hand)
      { s with store := s.store.setCount slot (k + 1) } := by
  have hn := h.lt_of_mem (List.mem_cons_self ..)
  have hns := h.not_sole
  rw [h.held_eq hn] at h1
  obtain ⟨⟨hlen, hnodup, hfree, hlt, hcount, hsole⟩, hkind, hflight⟩ := h
  have hheld : ∀ m, State.held (List.replicate (k + 1) slot ++ hand)
      { s with store := s.store.setCount slot (k + 1) } m = if m = slot then k + 1 else s.held (slot :: hand) m := by
    intro m
    change (List.replicate (k + 1) slot ++ hand).count m + s.holders.count m = _
    simp only [State.held, List.count_cons_self] at h1
    rw [State.held, List.count_append, List.count_replicate, List.count_cons]
    by_cases e : m = slot
    · subst e
      simp only [beq_self_eq_true, if_true]
      omega
    · simp [e, Ne.symm e]
  refine ⟨⟨by simpa [FrameStore.setCount] using hlen, hnodup, hfree, fun m hm => ?_, fun m hm => ?_, fun m hm => ?_⟩,
    hkind, hflight⟩
  · rw [hheld] at hm
    by_cases e : m = slot
    · exact e ▸ hn
    · exact hlt m (by rwa [if_neg e] at hm)
  · obtain ⟨h1', h2, h3⟩ := hcount m hm
    rw [hheld, FrameStore.setCount, getD_set _ _ _ _ (hlen ▸ hn)]
    by_cases e : m = slot
    · subst e
      simp only [if_true]
      exact ⟨trivial, hk, by rw [h3, h1]; simp⟩
    · simp only [if_neg e]
      exact ⟨h1', h2, h3⟩
  · rw [hheld, if_neg (fun e : m = slot => hns (e ▸ hm)), hsole m hm]

/-- The copies are made and the slot settled at their number (R50). -/
theorem State.Lawful.settleSlot {slot : Nat} {r : State × Nat} (h : s.Lawful g (slot :: hand))
    (h1 : s.slotCount slot = 1) (hr : State.Copied slot s r) (hle : r.2 ≤ 2) :
    (r.1.settleSlot slot r.2).Lawful g hand := by
  obtain ⟨u, k⟩ := r
  obtain ⟨hstore, hlaw⟩ := hr
  cases k with
  | zero => exact State.Lawful.releaseSlot (by simpa [← hstore] using hlaw s.store g (slot :: hand) h)
  | succ k =>
    have := hlaw _ g hand (h.setCount h1 hle)
    rw [← hstore] at this
    exact this

theorem State.copied_append {p : Port} {c : Cls} {d : Desc} : State.Copied d.slot s (s.append p c d, 1) :=
  ⟨rfl, fun f _ _ h => State.Lawful.append (s := { s with store := f }) h⟩

theorem State.copied_same {slot : Nat} {t : State} (h : s.SameSlots t) : State.Copied slot s (t, 0) :=
  ⟨h.store, fun _ _ _ hs => State.Lawful.same hs
    ⟨rfl, h.rx, h.tx, h.queues, h.records, h.requests, h.engine, h.control, h.commit⟩⟩

theorem State.copied_retain {r : Record} : State.Copied r.slot s (s.retain r, 1) :=
  ⟨by simp, fun _ _ _ h => by
    rw [State.retain_with_store]
    exact State.Lawful.retain h⟩

theorem State.copied_copyFor (i : Byte) (e : StreamEntry) (c : Cls) (a : Arrival) (s : State) (p : Port) :
    State.Copied a.slot s (State.copyFor i e c a s p) ∧ (State.copyFor i e c a s p).2 ≤ 1 := by
  unfold State.copyFor State.copyDown
  split
  · split
    · exact ⟨State.copied_same (.rest rfl), Nat.zero_le _⟩
    · exact ⟨State.copied_append, Nat.le_refl _⟩
  · split
    · split
      · exact ⟨State.copied_retain (r := { slot := a.slot, .. }), Nat.le_refl _⟩
      · exact ⟨State.copied_same (.rest rfl), Nat.zero_le _⟩
    all_goals exact ⟨State.copied_same (.rest rfl), Nat.zero_le _⟩

theorem State.copied_unmatchedFor (a : Arrival) (s : State) (p : Port) :
    State.Copied a.slot s (State.unmatchedFor a s p) ∧ (State.unmatchedFor a s p).2 ≤ 1 := by
  unfold State.unmatchedFor
  split
  · exact ⟨State.copied_append, Nat.le_refl _⟩
  · exact ⟨State.copied_same (.rest rfl), Nat.zero_le _⟩

theorem State.defaultRoute_length (s : State) (a : Arrival) : (s.defaultRoute a).length ≤ 2 := by
  unfold State.defaultRoute
  split_ifs
  · simp
  · cases a.port <;> simp [otherPorts]
  · split <;> simp

theorem State.routePorts_length (s : State) (r : Route) (a : Arrival) : (s.routePorts r a).length ≤ 2 := by
  cases r with
  | port p => simp [State.routePorts]
  | bothOthers => cases h : a.port <;> simp [State.routePorts, h, otherPorts]
  | default => exact s.defaultRoute_length a

theorem State.Lawful.forwardMatched (i : Byte) (e : StreamEntry) (c : Cls) {a : Arrival} (h : s.Lawful g (a.slot :: hand))
    (h1 : s.slotCount a.slot = 1) : (s.forwardMatched i e c a).Lawful g hand := by
  unfold State.forwardMatched
  extract_lets ports r
  split
  · exact h.dropCopy
  · obtain ⟨hr, hle⟩ := State.copied_foldl (State.copyStep_eq i e c a) (State.copied_copyFor i e c a) ports s
    exact h.settleSlot h1 hr (hle.trans (s.routePorts_length e.route a))

theorem State.Lawful.monitorStep (i : Byte) (e : StreamEntry) (a : Arrival) (h : s.Lawful g hand) :
    (s.monitorStep i e a).1.Lawful g hand := by
  unfold State.monitorStep
  split
  · exact h
  all_goals exact h.same (.rest rfl)

theorem State.Lawful.budgetStep (i : Byte) (e : StreamEntry) (a : Arrival) (h : s.Lawful g hand) :
    (s.budgetStep i e a).1.Lawful g hand := by
  unfold State.budgetStep
  split
  · exact h
  · split
    all_goals exact h.same (.rest rfl)

theorem State.Lawful.actionStep (i : Byte) (e : StreamEntry) {a : Arrival} (h : s.Lawful g (a.slot :: hand))
    (h1 : s.slotCount a.slot = 1) : (s.actionStep i e a).Lawful g hand := by
  unfold State.actionStep
  split
  · have hb := h.budgetStep i e a
    unfold State.budgetAndForward
    split
    · exact hb.dropCopy
    · exact hb.forwardMatched i e _ (by simpa [State.slotCount] using h1)
  · exact h.dropCopy
  · unfold State.captureFrame
    split
    · exact State.Lawful.retain (r := { slot := a.slot, .. }) h
    · exact (h.same (t := s.overflow) (.rest rfl)).dropCopy

theorem State.Lawful.classifyMatched (i : Byte) (e : StreamEntry) {a : Arrival} (h : s.Lawful g (a.slot :: hand))
    (h1 : s.slotCount a.slot = 1) : (s.classifyMatched i e a).Lawful g hand := by
  have hc : (s.countMatch i e a).Lawful g (a.slot :: hand) := h.same (.rest rfl)
  have hm := hc.monitorStep i e a
  unfold State.classifyMatched
  extract_lets u
  split
  · exact hc.dropCopy
  · split
    · exact hm.actionStep i e (by simpa [State.slotCount] using h1)
    · exact hm.dropCopy

theorem State.Lawful.classifyUnmatched {a : Arrival} (h : s.Lawful g (a.slot :: hand)) (h1 : s.slotCount a.slot = 1) :
    (s.classifyUnmatched a).Lawful g hand := by
  have hc := h.countPort a.port PortCounters.incUnmatched
  unfold State.classifyUnmatched
  extract_lets u
  split
  · exact hc.releaseSlot
  · split
    · exact hc.releaseSlot
    · obtain ⟨hr, hle⟩ := State.copied_foldl (State.unmatchedCopy_eq a) (State.copied_unmatchedFor a) (u.defaultRoute a) u
      exact hc.settleSlot h1 hr (hle.trans (u.defaultRoute_length a))

theorem State.Lawful.classify {a : Arrival} (h : s.Lawful g (a.slot :: hand)) (h1 : s.slotCount a.slot = 1) :
    (s.classify a).Lawful g hand := by
  unfold State.classify
  split
  · split
    · exact h.intake h1
    · exact (h.countPort a.port _).releaseSlot
  · split
    · exact h.classifyMatched _ _ h1
    · exact h.classifyUnmatched h1

/-! ### Receptions -/

theorem State.Lawful.startReception {p : Port} (h : s.Lawful g hand) (hidle : (s.port p).rx = none) :
    (s.startReception p).Lawful g hand := by
  have ht : s.takeSlot.2.Lawful g (s.takeSlot.1.toList ++ hand) ∧
      ∀ n, s.takeSlot.1 = some n → s.takeSlot.2.slotCount n = 1 := by
    rcases ht : s.takeSlot with ⟨_ | n, u⟩
    · have hu : u = s := by
        unfold State.takeSlot at ht
        split at ht <;> simp_all
      exact ⟨hu ▸ h, by simp⟩
    · obtain ⟨hl, h1⟩ := h.takeSlot ht
      exact ⟨hl, fun m hm => by cases hm; exact h1⟩
  have hidle' : (s.takeSlot.2.port p).rx = none := by simpa using hidle
  unfold State.startReception
  dsimp only
  refine ht.1.modPort (fun n => ?_) (fun n hn => .inr ?_) (fun rx hrx _ => ?_) (fun _ _ ht => ht)
  · simp only [PortUnit.holds, PortUnit.rxSlot, PortUnit.txSlot, hidle', List.count_append, Option.bind_none,
      Option.bind_some, Option.toList_none, List.count_nil]
    omega
  · have hn' : s.takeSlot.1 = some n := hn
    rw [← ht.2 n hn', ht.1.held_eq (ht.1.lt_of_mem (by simp [hn']))]
  · cases hrx
    simp

theorem State.Lawful.receiveKind (p : Port) (k : Byte) (h : s.Lawful g hand) : (s.receiveKind p k).Lawful g hand := by
  unfold State.receiveKind
  split
  next => exact h
  next rx hrx =>
    have hslot : (s.port p).rxSlot = rx.slot := by simp [PortUnit.rxSlot, hrx]
    split
    · exact h
    · split
      · exact State.Lawful.releaseSlot? (hslot ▸ h.dropRx rfl (by rintro _ ⟨⟩; rfl) rfl)
      next hk =>
        have hheld : ({ s.port p with rx := some { rx with kind := some k } } : PortUnit).rxSlot = (s.port p).rxSlot :=
          hslot.symm
        refine h.modPort (fun n => ?_) (fun n hn => .inl (hheld ▸ hn)) (fun rx' hrx' _ => ?_) (fun _ _ ht => ht)
        · rw [PortUnit.holds, PortUnit.holds, hheld]
          rfl
        · cases hrx'
          simpa using hk

theorem State.Lawful.slot_of_rx {p : Port} {rx : Reception} {n : Nat} (h : s.Lawful g hand) (hrx : (s.port p).rx = some rx)
    (hn : rx.slot = some n) : s.slotCount n = 1 := by
  have h1 := h.store.sole n (.inl ⟨p, by simp [PortUnit.rxSlot, hrx, hn]⟩)
  rw [h.held_eq (h.store.held_lt n (by omega)), h1]

theorem State.Lawful.checkAndHandOn {p : Port} {rx : Reception} {k : Byte} {bytes : List Byte}
    (h : s.Lawful g (rx.slot.toList ++ hand)) (h1 : ∀ n, rx.slot = some n → s.slotCount n = 1)
    (hnone : rx.slot = none → k = kindSync) (hsome : rx.slot ≠ none → k ≠ kindSync) :
    (s.checkAndHandOn p rx k bytes).Lawful g hand := by
  have hb : (s.storeBytes rx bytes).Lawful g (rx.slot.toList ++ hand) := by
    unfold State.storeBytes
    split
    · exact h
    next n hn =>
      rw [hn] at h ⊢
      exact State.Lawful.writeSlot bytes h (h1 n hn)
  have hb1 : ∀ n, rx.slot = some n → (s.storeBytes rx bytes).slotCount n = 1 := by
    intro n hn
    unfold State.storeBytes
    split
    · exact h1 n hn
    · rw [State.slotCount_writeSlot, h1 n hn]
  unfold State.checkAndHandOn
  extract_lets u
  split
  · exact (hb.countPort p _).releaseSlot?
  · exact (hb.countPort p _).releaseSlot?
  · have hc := hb.countPort p PortCounters.incReceived
    unfold State.handOn
    split
    next hk =>
      have hslot : rx.slot = none := by
        by_contra hs
        exact hsome hs hk
      rw [hslot] at hc
      split
      · exact State.Lawful.syncArrival p rx _ hc
      · exact State.Lawful.countPort p _ hc
    next hk =>
      split
      next hs => exact absurd (hnone hs) hk
      next n hs =>
        rw [hs] at hc
        exact State.Lawful.classify (a := State.arrivalIn _ p n _ k bytes.length) hc (hb1 n hs)

theorem State.Lawful.endReception (p : Port) (bytes : List Byte) (h : s.Lawful g hand) :
    (s.endReception p bytes).Lawful g hand := by
  have hf : (s.finishKind p bytes).Lawful g hand := by
    unfold State.finishKind
    split
    · exact h.receiveKind p _
    · exact h
  unfold State.endReception
  extract_lets u
  split
  next => exact h
  next v _ rx hrx =>
    extract_lets k
    have hslot : (u.port p).rxSlot = rx.slot := by simp [PortUnit.rxSlot, hrx]
    have hv : v.Lawful g (rx.slot.toList ++ hand) := hslot ▸ hf.dropRx rfl (by simp) rfl
    have h1 : ∀ n, rx.slot = some n → v.slotCount n = 1 := fun n hn => hf.slot_of_rx hrx hn
    have hk : rx.slot ≠ none → k ≠ kindSync := by
      intro hs
      have := hf.kind p rx hrx hs
      unfold k
      cases hkind : rx.kind with
      | none => decide
      | some b => simpa [hkind] using this
    clear_value v k
    split
    next hnone =>
      rw [Option.isNone_iff_eq_none.mp hnone.1] at hv
      exact State.Lawful.countPort p _ hv
    next hgo =>
      refine State.Lawful.checkAndHandOn hv h1 ?_ hk
      rwa [Option.isNone_iff_eq_none, not_and_or, not_not, ← imp_iff_not_or] at hgo

/-! ### The port units -/

theorem State.Lawful.cutTransmission (p : Port) (h : s.Lawful g hand) : (s.cutTransmission p).Lawful g hand := by
  unfold State.cutTransmission
  split
  next => exact h
  next x hx =>
    have hd := State.Lawful.countPort p PortCounters.incAborted (h.dropTx (p := p) (f := fun u => { u with tx := none }) rfl rfl)
    extract_lets u
    rw [PortUnit.txSlot, hx] at hd
    split
    next hs =>
      simp only [Option.bind_some, hs] at hd
      exact hd
    next d hs =>
      simp only [Option.bind_some, hs] at hd
      exact State.Lawful.dispose hd

theorem State.Lawful.modPort_same {p : Port} {f : PortUnit → PortUnit} (h : s.Lawful g hand)
    (hrx : (f (s.port p)).rx = (s.port p).rx) (htx : (f (s.port p)).tx = (s.port p).tx) : (s.modPort p f).Lawful g hand :=
  h.same (State.sameSlots_modPort hrx (by rw [PortUnit.txSlot, PortUnit.txSlot, htx]))

theorem State.Lawful.losePort (p : Port) (h : s.Lawful g hand) : (s.losePort p).Lawful g hand :=
  State.Lawful.changePort p _ (State.Lawful.modPort_same
    ((((h.abandonReception p).cutTransmission p).disposeQueues p).emptyHolder p) rfl rfl)

theorem State.Lawful.bringUp (p : Port) (h : s.Lawful g hand) : (s.bringUp p).Lawful g hand := by
  have hu : (((s.modPort p fun u => { u with good := 0, bad := 0, qualCount := none }).changePort p .up).raise p).Lawful g
      hand := State.Lawful.same (State.Lawful.changePort p _ (h.modPort_same rfl rfl)) (.rest rfl)
  unfold State.bringUp
  extract_lets waiting u
  split
  · exact hu.completePortControl p _ _
  · exact hu

theorem State.Lawful.linkCheck (p : Port) (good : Bool) (h : s.Lawful g hand) : (s.linkCheck p good).Lawful g hand := by
  unfold State.linkCheck
  extract_lets u
  have hu : u.Lawful g hand := h.modPort_same rfl rfl
  have hup : (u.checkForUp p good).Lawful g hand := by
    unfold State.checkForUp State.countQualification
    extract_lets n
    have hv : (u.modPort p fun x => { x with good := n }).Lawful g hand := hu.modPort_same rfl rfl
    split
    · exact hu.bringUp p
    · split
      · exact hv
      · split
        · exact (State.Lawful.changePort p _ (hv.modPort_same rfl rfl)).completePortControl p _ _
        · exact hv.modPort_same rfl rfl
  have hloss : (u.checkForLoss p good).Lawful g hand := by
    unfold State.checkForLoss
    extract_lets n
    split
    · exact hu.losePort p
    · exact hu.modPort_same rfl rfl
  split
  · exact hu
  · exact hu
  · exact hup
  · exact hup
  · exact hloss

theorem State.Lawful.shutPort (p : Port) (h : s.Lawful g hand) : (s.shutPort p).Lawful g hand :=
  State.Lawful.changePort p _ (State.Lawful.modPort_same ((h.disposeQueues p).emptyHolder p) rfl rfl)

theorem State.Lawful.endTransmission (p : Port) (h : s.Lawful g hand) : (s.endTransmission p).Lawful g hand := by
  unfold State.endTransmission
  split
  next => exact h
  next x hx =>
    have hr : (s.releaseTransmission p x).Lawful g hand := by
      have hd := State.Lawful.dropTx (p := p) (f := fun u => { u with tx := none })
        (h.countPort p PortCounters.incSent) rfl rfl
      have hx' : ((s.countPort p PortCounters.incSent).port p).tx = some x := by simpa [State.countPort] using hx
      rw [PortUnit.txSlot, hx'] at hd
      unfold State.releaseTransmission
      extract_lets u
      split
      next hs =>
        simp only [Option.bind_some, hs] at hd
        exact hd
      next d hs =>
        simp only [Option.bind_some, hs] at hd
        have hd' : u.Lawful g (d.slot :: hand) := hd
        split
        · exact (hd'.same (t := u.countStream _ _) (.rest rfl)).releaseSlot
        all_goals exact hd'.releaseSlot
    unfold State.afterTransmission
    split
    · exact hr.same (.rest rfl)
    · exact (hr.shutPort p).completePortControl p _ _
    all_goals exact hr

/-! ### Requests -/

theorem State.Lawful.controlPort {u : State} {p : Port} {op : PortOp} (h : s.Lawful g hand)
    (hu : s.controlPort p op = .done u ∨ s.controlPort p op = .waits u) : u.Lawful g hand := by
  have toState : ∀ {s : State} f st, (∀ u : PortUnit, (f u).rx = u.rx ∧ (f u).tx = u.tx) → s.Lawful g hand →
      ((s.modPort p f).changePort p st).Lawful g hand :=
    fun f st hf hs => State.Lawful.changePort p st (hs.modPort_same (hf _).1 (hf _).2)
  unfold State.controlPort State.enablePort State.disablePort at hu
  rcases hu with hu | hu <;> (repeat' split at hu) <;> cases hu
  all_goals first
    | exact h
    | exact (h.abandonReception p).shutPort p
    | exact toState _ _ (fun _ => ⟨rfl, rfl⟩) h
    | exact toState _ _ (fun _ => ⟨rfl, rfl⟩) (h.abandonReception p)

theorem State.Lawful.requeue (n moved : Nat) (h : s.Lawful g hand) : (State.requeue n moved s).1.Lawful g hand := by
  induction n generalizing moved s with
  | zero => exact h
  | succ n ih =>
    unfold State.requeue
    split
    next => exact h
    next r rest hr =>
      split
      next => exact h
      next hstop =>
        obtain ⟨-, -, p, hp, -⟩ := (s.requeueStop_eq_none r).mp hstop
        refine ih _ ?_
        simp only [State.requeueOne, hp]
        have hout : (s.setRecords rest).Lawful g (r.slot :: hand) := h.setRecords fun n => by
          simp [hr, List.count_cons]
          omega
        exact State.Lawful.append (d := r.toDesc s.timer.cycleCount) hout

theorem State.Lawful.flushRecords (h : s.Lawful g hand) : s.flushRecords.Lawful g hand :=
  foldl_consumes (slot := Record.slot) (fun _ => State.Lawful.releaseSlot) _ (h.setRecords fun n => by
    rw [List.count_append, List.map_nil, List.count_nil]
    omega)

theorem State.Lawful.discardQueues (h : s.Lawful g hand) : s.discardQueues.Lawful g hand :=
  foldl_keeps (fun p => foldl_keeps (fun {s} c hs => foldl_consumes (slot := Desc.slot)
    (fun _ => State.Lawful.releaseSlot) _ (hs.setEgress (p := p) (c := c) fun n => by
      rw [List.count_append, List.map_nil, List.count_nil]
      omega)) _) _ h

theorem State.Lawful.clearPorts (h : s.Lawful g hand) : s.clearPorts.Lawful g hand :=
  foldl_keeps (fun p hs => hs.countPort p _) _ h

theorem State.Lawful.prepared {t : State} (hp : Prepared s t) (h : s.Lawful g hand) : t.Lawful g hand := by
  cases hp with
  | nothing => exact h
  | clearedStreams first count => exact foldl_keeps (fun i hs => hs.same (.rest rfl)) _ h
  | clearedPorts => exact h.clearPorts
  | clearedAll => exact h.mapStreams _
  | clearedBoth => exact (h.mapStreams _).clearPorts
  | shadow b => exact h.same (.rest rfl)
  | cancelled => exact h.completeCommit _ _
  | portDone p op hp => exact h.controlPort (.inl hp)
  | retrieved r rest hr =>
    refine State.Lawful.releaseSlot (h.setRecords fun n => ?_)
    simp [hr, List.count_cons]
    omega
  | requeued n => exact h.requeue n 0
  | flushed => exact h.flushRecords
  | discarded => exact foldl_keeps (fun p hs => hs.emptyHolder p) _ h.discardQueues.flushRecords

/-- No preparation touches the engine's request. -/
theorem Prepared.engine {t : State} (hp : Prepared s t) : t.mgmt.engine = s.mgmt.engine := by
  cases hp with
  | portDone p op hp =>
    unfold State.controlPort State.enablePort State.disablePort at hp
    (repeat' split at hp) <;> cases hp <;> simp
  | _ => simp

/-- The engine's request moves to an outstanding place with its slot. -/
theorem State.Lawful.engineWaits {t : State} {req : Request} {held : Bool} (h : s.Lawful g hand)
    (he : s.mgmt.engine = .executing req held) (ht : t = { s with mgmt := t.mgmt, gen := t.gen })
    (hidle : t.mgmt.engine = .idle) (hreq : t.mgmt.requests = s.mgmt.requests)
    (hr : ∀ n, t.mgmt.controlSlots.count n + t.gen.commitSlot.toList.count n =
      s.mgmt.controlSlots.count n + s.gen.commitSlot.toList.count n + [req.slot].count n) : t.Lawful g hand := by
  refine h.requestEnds (o := none) ht fun n => ?_
  have := hr n
  rw [State.count_requestSlots, State.count_requestSlots, hidle, he, hreq]
  simp only [Engine.slots, Option.toList_none, List.count_nil]
  omega

theorem State.Lawful.acceptCommit {req : Request} {held : Bool} (target : Target) (h : s.Lawful g hand)
    (he : s.mgmt.engine = .executing req held) (hc : s.gen.commit = none) : (s.acceptCommit req target).Lawful g hand := by
  have hnone : s.gen.commitSlot = none := by simp [Generation.commitSlot, hc]
  unfold State.acceptCommit
  extract_lets early c u
  split
  next hearly =>
    have hu : u.Lawful g hand := by
      refine h.requestEnds (o := none) rfl fun n => ?_
      have hslot : u.gen.commitSlot = none := by
        change Generation.commitSlot { s.gen with commit := some c } = none
        simp [Generation.commitSlot, c, hearly]
      rw [State.count_requestSlots, State.count_requestSlots, hslot, hnone]
      rfl
    exact hu.answer _ _ _ he
  next hearly =>
    refine h.engineWaits he rfl rfl rfl fun n => ?_
    have hslot : (u.setEngine .idle).gen.commitSlot = some req.slot := by
      change Generation.commitSlot { s.gen with commit := some c } = _
      simp [Generation.commitSlot, c, hearly]
    rw [hslot, hnone]
    rfl

theorem State.Lawful.waitPortControl {req : Request} {held : Bool} (p : Port) (op : PortOp) (early : Bool)
    (h : s.Lawful g hand) (he : s.mgmt.engine = .executing req held) (hn : s.mgmt.portControl.get p = none) :
    (s.waitPortControl req p op early).Lawful g hand := by
  unfold State.waitPortControl
  extract_lets o u
  have hcount : ∀ n, u.mgmt.controlSlots.count n = s.mgmt.controlSlots.count n + o.slot.toList.count n := by
    intro n
    have h := s.mgmt.count_controlSlots_set p (some o) n
    rw [hn] at h
    exact h
  split
  next hearly =>
    have hu : u.Lawful g hand := by
      refine h.requestEnds (o := none) rfl fun n => ?_
      have hslot : o.slot = none := by simp [o, hearly]
      rw [State.count_requestSlots, State.count_requestSlots, hcount, hslot]
      rfl
    exact hu.answer _ _ _ he
  next hearly =>
    refine h.engineWaits he rfl rfl rfl fun n => ?_
    have hslot : o.slot = some req.slot := by simp [o, hearly]
    change u.mgmt.controlSlots.count n + s.gen.commitSlot.toList.count n = _
    rw [hcount, hslot]
    exact Nat.add_right_comm ..

theorem State.Lawful.reaction {t : State} {req : Request} {held : Bool} (hr : Reaction s req t) (h : s.Lawful g hand)
    (he : s.mgmt.engine = .executing req held) : t.Lawful g hand := by
  cases hr with
  | answered st n d hp => exact (h.prepared hp).answer st n d (hp.engine.trans he)
  | condition => exact h.deliverCondition he
  | committed target hc => exact h.acceptCommit target he hc
  | portWaits p op hn hp =>
    obtain ⟨hcontrol, -, -⟩ := State.controlPort_early hp
    refine (h.controlPort (.inr hp)).waitPortControl p op _ (?_ : _ = Engine.executing req held) (by rw [hcontrol, hn])
    rw [← he]
    unfold State.controlPort State.enablePort State.disablePort at hp
    (repeat' split at hp) <;> cases hp <;> simp
  | reset =>
    unfold State.runDeviceReset
    extract_lets u
    have hu : u.Lawful g hand := by
      refine (h.answer .done 0 [] he).requestEnds (o := none) rfl fun n => ?_
      rw [State.count_requestSlots, State.count_requestSlots]
      rfl
    exact State.Lawful.same (foldl_keeps (fun p hs => hs.abandonReception p) allPorts hu) (.rest rfl)

theorem State.Lawful.setPower (w : Power) (h : s.Lawful g hand) : (s.setPower w).Lawful g hand := h.same (.rest rfl)

theorem State.Lawful.halt (h : s.Lawful g hand) : s.halt.Lawful g hand := by
  refine State.Lawful.same (foldl_keeps (fun p hs => hs.abandonReception p) allPorts
    (foldl_keeps (fun {s} p hs => ?_) allPorts h)) (.rest rfl)
  unfold State.stopTransmission
  split
  next => exact hs
  next x hx =>
    have hd := hs.dropTx (p := p) (f := fun u => { u with tx := none }) rfl rfl
    extract_lets u
    rw [PortUnit.txSlot, hx] at hd
    split
    next hsync =>
      simp only [Option.bind_some, hsync] at hd
      exact hd
    next d hdesc =>
      simp only [Option.bind_some, hdesc] at hd
      exact State.Lawful.releaseSlot hd

/-! ### Commands and steps -/

/-- A reset leaves every slot free (R74). -/
theorem State.lawful_resetBlocks (g : Flight) (s : State) (f : Port → PortState) (straps : BitVec 7) (epoch : Byte) :
    (s.resetBlocks f straps epoch).Lawful g [] := by
  have hrx : ∀ p, ((s.resetBlocks f straps epoch).port p).rx = none := by rintro (_ | _ | _) <;> rfl
  have htx : ∀ p, ((s.resetBlocks f straps epoch).port p).tx = none := by rintro (_ | _ | _) <;> rfl
  have hheld : ∀ n, (s.resetBlocks f straps epoch).held [] n = 0 := fun n => rfl
  have hnodup : (s.resetBlocks f straps epoch).store.free.Nodup := by
    simp only [State.resetBlocks, FrameStore.initial, List.nodup_range]
  have hfree : ∀ n, n ∈ (s.resetBlocks f straps epoch).store.free ↔ n < 384 := by
    simp only [State.resetBlocks, FrameStore.initial, List.mem_range, Config.slots, implies_true]
  refine ⟨⟨List.length_replicate, hnodup, fun n hn => (hfree n).mp hn, fun n hn => absurd (hheld n) hn,
    fun n hn => ?_, ?_⟩, fun p rx h => by simp [hrx] at h, fun p n m _ h => by simp [PortUnit.txSlot, htx] at h⟩
  · rw [hheld]
    refine ⟨?_, by omega, iff_of_true ((hfree n).mpr hn) rfl⟩
    change (List.replicate Config.slots 0).getD n 0 = 0
    rw [List.getD_eq_getElem?_getD, List.getElem?_replicate]
    split <;> rfl
  · rintro n (⟨p, h⟩ | h)
    · simp [PortUnit.rxSlot, hrx] at h
    · cases h

/-- A busy arbiter starts nothing (R98). -/
theorem State.tx_settle_of_busy {p : Port} {tr : Transmission} (h : (s.port p).tx = some tr) :
    (s.settle.port p).tx = some tr := by
  refine foldl_keeps (P := fun s : State => (s.port p).tx = some tr) (fun {s} q hs => ?_) allPorts h
  by_cases hq : p = q
  · subst hq
    have hlow : ((s.lower p).port p).tx = some tr := hs
    unfold State.takeOpportunity State.arbitrate
    rw [hlow]
    split
    · simpa using hlow
    · exact hs
  · rwa [(s.takeOpportunity_other hq).1]

/-- The ways in which a transmission in flight can stop at a command that gives `t` (R11, R102, R107). -/
def Stops (s : State) (c : Instr) (t : State) (p : Port) (tr : Transmission) : Prop :=
  (c = .transmissionEnd p ∧ tr.start + tr.occupation ≤ s.refCount) ∨
    (c = .linkCheck p false ∧ (s.port p).state = .up ∧ (t.port p).state = .down) ∨ c.isPowerCommand = true

/-- A command does what it does before it takes the start opportunities, with the law kept and the transmissions in flight
going on. -/
theorem Effect.lawful {c : Instr} {t : State} (he : Effect s c t) :
    ∃ u, (∀ g, s.Lawful g [] → u.Lawful g []) ∧ (t = u ∨ t = u.settle) ∧
      ∀ p tr, (s.port p).tx = some tr → (u.port p).tx = some tr ∨ Stops s c t p tr := by
  have power : ∀ {u : State}, c.isPowerCommand = true → (∀ g, s.Lawful g [] → u.Lawful g []) →
      ∃ v, (∀ g, s.Lawful g [] → v.Lawful g []) ∧ (u = v ∨ u = v.settle) ∧
        ∀ p tr, (s.port p).tx = some tr → (v.port p).tx = some tr ∨ Stops s c u p tr :=
    fun hc hu => ⟨_, hu, .inl rfl, fun _ _ _ => .inr (.inr (.inr hc))⟩
  cases he with
  | powerOnEvent | pinReset | pinPowerOn => exact power rfl fun g _ => s.lawful_resetBlocks g _ _ _
  | releasedLow | holdLow | holdHigh | holdAgain => exact power rfl fun g h => h.setPower _
  | haltLow | haltHold => exact power rfl fun g h => h.halt.setPower _
  | deviceReset _ hd =>
    refine ⟨_, fun g _ => s.lawful_resetBlocks g _ _ _, .inl rfl, fun p tr htx => ?_⟩
    unfold State.drainComplete at hd
    split at hd
    · cases hd
    · rw [Bool.and_eq_true, List.all_eq_true] at hd
      have := hd.2 (s.port p) (by cases p <;> simp [State.port, Trio.get, Trio.toList])
      simp [htx] at this
  | unchanged => exact ⟨s, fun _ => id, .inl rfl, fun _ _ => .inl⟩
  | receptionStart p hr =>
    have hidle : (s.port p).rx = none := by
      simp only [State.mayReceive, Bool.and_eq_true, Option.isNone_iff_eq_none] at hr
      exact hr.1.2
    exact ⟨_, fun _ h => h.startReception hidle, .inl rfl, fun q tr htx => .inl (by simpa using htx)⟩
  | kindField p k => exact ⟨_, fun _ h => h.receiveKind p k, .inl rfl, fun q tr htx => .inl (by simpa using htx)⟩
  | receptionEnd p bytes =>
    exact ⟨_, fun _ h => h.endReception p bytes, .inr rfl, fun q tr htx => .inl (by simpa using htx)⟩
  | cycleEnd => exact ⟨_, fun _ h => h.cycleEnd, .inr rfl, fun q tr htx => .inl (by simpa using htx)⟩
  | windowEvent p => exact ⟨_, fun _ h => h.windowEvent p, .inr rfl, fun q tr htx => .inl (by simpa using htx)⟩
  | linkCheck p good =>
    refine ⟨_, fun _ h => h.linkCheck p good, .inr rfl, fun q tr htx => ?_⟩
    rcases s.tx_linkCheck p q good with heq | ⟨rfl, rfl, hup, hdown, -⟩
    · exact .inl (heq.trans htx)
    · exact .inr (.inr (.inl ⟨rfl, hup, by simpa using hdown⟩))
  | transmissionEnd p _ hdue =>
    refine ⟨_, fun _ h => h.endTransmission p, .inr rfl, fun q tr htx => ?_⟩
    by_cases hq : q = p
    · subst hq
      simp only [State.transmissionDue, htx, decide_eq_true_eq] at hdue
      exact .inr (.inl ⟨rfl, hdue⟩)
    · exact .inl (by rw [State.tx_endTransmission, if_neg hq, htx])
  | request req held hr _ htake =>
    exact ⟨_, fun _ h => h.take.reaction (hr.runTaken_reaction req held _) htake, .inr rfl,
      fun q tr htx => .inl (((State.SameRun.runTaken hr req held s).tx q).trans htx)⟩

/-- Settles O52. -/
theorem slotLawIsKept : Obligations.SlotLawIsKept := by
  intro s t hs hstep
  rw [State.slotLaw_iff] at hs ⊢
  obtain ⟨-, rfl⟩ | ⟨c, rest, -, he⟩ := step_cases hstep
  · unfold State.idleStep
    split
    · split
      · exact State.Lawful.take (hs.same (.rest rfl))
      · exact hs.same (.rest rfl)
    · exact hs
  · have hs' : State.Lawful none [] { s with pending := rest } := hs.same (.rest rfl)
    obtain ⟨u, hu, rfl | rfl, -⟩ := (effect_of_exec he).lawful
    · exact hu none hs'
    · exact (hu none hs').settle

/-- Settles O58: the transmission's slot is followed up to the start opportunities, which write no byte. -/
theorem transmissionsRunToTheirEnd : Obligations.TransmissionsRunToTheirEnd := by
  intro s t c p tr hexec htx
  obtain ⟨u, hlaw, hu, hgo⟩ := (effect_of_exec hexec).lawful
  refine (hgo p tr htx).imp_left fun hutx => ?_
  have ht : (t.port p).tx = some tr ∧ t.store = u.store := by
    obtain rfl | rfl := hu
    · exact ⟨hutx, rfl⟩
    · exact ⟨State.tx_settle_of_busy hutx, by simp⟩
  refine ⟨ht.1, fun d hs hd o ho => ?_⟩
  obtain ⟨hstore, hkind, -⟩ := State.slotLaw_iff.mp hs
  have hflight := (hlaw (some (p, d.slot, s.store.mem)) ⟨hstore, hkind, by rintro _ _ _ ⟨⟩ _ _ _; rfl⟩).flight
  rw [ht.2]
  exact hflight p d.slot _ rfl (by simp [PortUnit.txSlot, hutx, hd]) o ho

/-- Settles O56: the state after reset is what a reset makes of it. -/
theorem resetMeetsEveryInvariant : Obligations.ResetMeetsEveryInvariant := by
  have hreset : State.reset = State.reset.resetBlocks (fun _ => .qualifying) 0 1 := rfl
  refine ⟨rfl, rfl, hreset ▸ State.withinBounds_resetBlocks .., State.slotLaw_iff.mpr (hreset ▸ State.lawful_resetBlocks ..),
    hreset ▸ State.banksValid_resetBlocks .., hreset ▸ State.gatesCurrent_resetBlocks _ _ _ _, Timer.inRange_initial,
    hreset ▸ State.countInRange_resetBlocks .., ?_, hreset ▸ State.queuedByClass_resetBlocks _ _ _ _⟩
  exact ⟨by decide, List.nodup_nil, nofun, fun p _ h => by cases p <;> cases h⟩

end

end Sys2Proof.Machine
end

section
/-! The resets, block by block (O5, O6), and the step on an empty queue (O2). -/

namespace Sys2Proof.Machine

open Sys2Proof

/-! ### Resets -/

theorem State.afterReset_resetBlocks (s : State) (f : Port → PortState) (straps : BitVec 7) (epoch : Byte) :
    s.AfterReset (s.resetBlocks f straps epoch) f straps epoch := by
  have hfree : (s.resetBlocks f straps epoch).store.free = List.range Config.slots := by
    simp only [State.resetBlocks, FrameStore.initial]
  refine ⟨rfl, rfl, rfl, rfl, fun p => ?_, fun p c => ?_, rfl, rfl, rfl, rfl, hfree, fun p => ⟨?_, fun c => ⟨?_, ?_⟩⟩, rfl,
    rfl, rfl⟩
  · cases p <;> exact ⟨rfl, rfl, rfl, rfl, rfl, rfl, rfl, rfl, rfl⟩
  · simp [State.egress, State.resetBlocks]
  · simp [State.resetBlocks, GateUnit.initial]
  · simp [State.resetBlocks, GateUnit.initial]
  · simp [State.resetBlocks, GateUnit.initial]

theorem streamImage_blank : streamImage StreamEntry.blank = List.replicate 32 0 := by decide

theorem windowImage_blank : windowImage WindowEntry.blank = List.replicate 16 0 := by decide

/-- Settles O5: the two events are `resetBlocks`, and the default bank is read off its definition. -/
theorem powerOnAndPinResetSetEveryBlock : Obligations.PowerOnAndPinResetSetEveryBlock := by
  intro s v
  refine ⟨fun h => ⟨s.powerOnEvent v, ?_, s.afterReset_resetBlocks ..⟩, fun h => ?_,
    fun h => ⟨s.powerOnEvent v, ?_, s.afterReset_resetBlocks ..⟩,
    fun h => ⟨s.pinResetEvent v, ?_, s.afterReset_resetBlocks ..⟩,
    fun straps => ⟨List.length_replicate, List.length_replicate, fun e he => ?_, fun w hw => ?_, rfl⟩⟩
  · simp only [exec, execPowerOn, h]
  · simp only [exec, execPowerOn, h]
    rfl
  · simp only [exec, execPinReset, h]
  · simp only [exec, execPinReset, h]
  · rw [List.eq_of_mem_replicate he]
    exact ⟨rfl, streamImage_blank⟩
  · rw [List.eq_of_mem_replicate hw]
    exact ⟨rfl, windowImage_blank⟩

/-- The drain is over once its reply waits no longer and no transmitter is busy (R106). -/
theorem State.drainReplyWaits_iff (s : State) (d : Drain) : s.drainReplyWaits d = true ↔
    ∃ p c x, d.queue = some (p, c) ∧ x ∈ s.egress p c ∧ x.origin = .management ∧ x.slot = d.slot := by
  unfold State.drainReplyWaits
  split
  next h => simp [h]
  next p c h => simp [h]

theorem State.allIdle_iff (s : State) : s.ports.toList.all (fun u => u.tx.isNone) = true ↔ ∀ p, (s.port p).tx = none := by
  simp only [Trio.toList, List.all_cons, List.all_nil, Bool.and_true, Bool.and_eq_true, Option.isNone_iff_eq_none]
  exact ⟨fun ⟨hA, hB, hL⟩ p => by cases p <;> assumption, fun h => ⟨h .A, h .B, h .L⟩⟩

theorem State.drainComplete_iff (s : State) : s.drainComplete = true ↔
    (∀ p, (s.port p).tx = none) ∧ ∃ d, s.mgmt.drain = some d ∧ ¬ s.drainReplyWaits d = true := by
  unfold State.drainComplete
  split
  next h => simp [h]
  next d h => simp [h, ← s.allIdle_iff, and_comm]

/-- Settles O6. -/
theorem deviceResetTakesEffect : Obligations.DeviceResetTakesEffect := by
  intro s d hp waits
  have hwaits : s.drainReplyWaits d = true ↔ waits := s.drainReplyWaits_iff d
  refine ⟨fun hd hw htx => ⟨s.deviceResetEvent, ?_, s.afterReset_resetBlocks ..⟩, fun h => ?_⟩
  · simp only [exec, execDeviceResetEffect]
    rw [if_pos ⟨hp, s.drainComplete_iff.mpr ⟨htx, d, hd, mt hwaits.mp hw⟩⟩]
  · simp only [exec, execDeviceResetEffect]
    rw [if_neg]
    rintro ⟨-, hc⟩
    obtain ⟨htx, e, he, hw⟩ := s.drainComplete_iff.mp hc
    rcases h with h | ⟨h, h'⟩
    · simp [h] at he
    · obtain rfl : d = e := Option.some.inj (h.symm.trans he)
      exact h'.elim (fun h' => hw (hwaits.mpr h')) fun ⟨p, hp⟩ => hp (htx p)

/-! ### The step on an empty queue -/

theorem mem_duePorts {due : Port → Bool} {event : Port → Instr} {c : Instr} :
    c ∈ duePorts due event ↔ ∃ p, c = event p ∧ due p = true := by
  have hall : ∀ p, p ∈ allPorts := by rintro (_ | _ | _) <;> decide
  simp [duePorts, hall, eq_comm (a := c), and_comm]

theorem State.transmissionDue_iff (s : State) (p : Port) :
    s.transmissionDue p = true ↔ ∃ x, (s.port p).tx = some x ∧ x.start + x.occupation ≤ s.refCount := by
  unfold State.transmissionDue
  split
  next h => simp [h]
  next x h => simp [h]

theorem mem_engineEvents {e : Engine} {c : Instr} :
    c ∈ engineEvents e ↔ ∃ req held, e = .executing req held ∧ c = requestCommand req.kind := by
  cases e with
  | executing req held => simp [engineEvents]
  | idle | stopped => simp [engineEvents]

/-- The rank of an event among those due together. -/
def dueRank : Instr → Nat
  | .transmissionEnd p => portBit p
  | .windowEvent p => 3 + portBit p
  | .cycleEnd => 6
  | .linkCheck p _ => 7 + portBit p
  | .deviceResetEffect => 10
  | _ => 11

theorem requestCommand_rank (k : Byte) : dueRank (requestCommand k) = 11 := by
  unfold requestCommand
  split <;> rfl

/-- Events in rising rank, from one rank on and below another. -/
def InOrder (lo hi : Nat) (l : List Instr) : Prop :=
  l.Pairwise (fun a b => dueRank a < dueRank b) ∧ ∀ c ∈ l, lo ≤ dueRank c ∧ dueRank c < hi

theorem InOrder.append {lo mid hi : Nat} {k l : List Instr} (hk : InOrder lo mid k) (hl : InOrder mid hi l)
    (h1 : lo ≤ mid) (h2 : mid ≤ hi) : InOrder lo hi (k ++ l) := by
  refine ⟨List.pairwise_append.mpr ⟨hk.1, hl.1, fun a ha b hb => ?_⟩, fun c hc => ?_⟩
  · exact (hk.2 a ha).2.trans_le (hl.2 b hb).1
  · rcases List.mem_append.mp hc with hc | hc
    · exact ⟨(hk.2 c hc).1, (hk.2 c hc).2.trans_le h2⟩
    · exact ⟨h1.trans (hl.2 c hc).1, (hl.2 c hc).2⟩

theorem InOrder.ite (b : Bool) (e : Instr) : InOrder (dueRank e) (dueRank e + 1) (if b = true then [e] else []) := by
  cases b <;> simp [InOrder]

/-- The events of the ports due come in port order. -/
theorem InOrder.duePorts {due : Port → Bool} {event : Port → Instr} (base : Nat)
    (h : ∀ p, dueRank (event p) = base + portBit p) : InOrder base (base + 3) (duePorts due event) := by
  have hports : allPorts.Pairwise fun a b => portBit a < portBit b := by decide
  refine ⟨List.pairwise_map.mpr ((hports.filter due).imp fun hab => ?_), fun c hc => ?_⟩
  · rw [h, h]
    omega
  · obtain ⟨p, rfl, -⟩ := mem_duePorts.mp hc
    rw [h]
    cases p <;> simp [portBit]

/-- A window event is due within the cycle, when a window closes or opens at the position (R79). -/
theorem State.windowEventDue_iff_opens (s : State) (p : Port) : s.windowEventDue p = true ↔
    0 < s.timer.position ∧ s.timer.position < s.timer.effLength ∧
      ((∃ o ∈ (s.gates.get p).windows, o.close = .at s.timer.position) ∨
        (s.Running ∧ ∃ w ∈ s.gen.active.windows.zipIdx, w.1.valid = true ∧ w.1.port = p ∧
          w.1.activeIn s.timer.round s.timer.index = true ∧ w.1.openOffset.toNat = s.timer.position ∧
          ∀ o ∈ (s.gates.get p).windows, o.index ≠ w.2)) := by
  simp only [State.windowEventDue, Bool.and_eq_true, Bool.or_eq_true, List.any_eq_true, decide_eq_true_eq,
    State.scheduleRuns_iff, Bool.not_eq_true', List.isEmpty_eq_false_iff_exists_mem, State.mem_opening_iff, and_assoc,
    and_comm (b := _ = s.timer.position)]

/-- The events due, one kind after the other. -/
theorem State.mem_dueEvents {s : State} (hp : s.power = .running) (c : Instr) : c ∈ s.dueEvents ↔
    (∃ p, c = .transmissionEnd p ∧ s.transmissionDue p = true) ∨ (∃ p, c = .windowEvent p ∧ s.windowEventDue p = true) ∨
    (c = .cycleEnd ∧ s.cycleEndDue = true) ∨
    (∃ p, c = .linkCheck p (s.port p).signalGood ∧ s.linkCheckDue p = true) ∨
    (c = .deviceResetEffect ∧ s.drainComplete = true) ∨
    (∃ req held, s.mgmt.engine = .executing req held ∧ c = requestCommand req.kind) := by
  have hite : ∀ {b : Bool} {e : Instr}, c ∈ (if b = true then [e] else []) ↔ c = e ∧ b = true := by
    intro b e
    cases b <;> simp
  simp only [State.dueEvents, if_pos hp, List.mem_append, mem_duePorts, mem_engineEvents, hite, or_assoc]

/-- Events due together come in one order: transmissions, windows, the cycle end, link checks, the reset's effect, the
engine's request (notes/assumptions/4.md). -/
theorem State.pairwise_dueEvents (s : State) : s.dueEvents.Pairwise fun a b => dueRank a < dueRank b := by
  unfold State.dueEvents
  split
  · have hengine : InOrder 11 12 (engineEvents s.mgmt.engine) := by
      unfold engineEvents
      split <;> simp [InOrder, requestCommand_rank]
    have htx := InOrder.duePorts (due := s.transmissionDue) (event := .transmissionEnd) 0 fun p =>
      (Nat.zero_add (portBit p)).symm
    have hwin := InOrder.duePorts (due := s.windowEventDue) (event := .windowEvent) 3 fun p => rfl
    have hcycle : InOrder 6 7 _ := .ite s.cycleEndDue .cycleEnd
    have hlink := InOrder.duePorts (due := s.linkCheckDue) (event := fun p => .linkCheck p (s.port p).signalGood) 7
      fun p => rfl
    have hreset : InOrder 10 11 _ := .ite s.drainComplete .deviceResetEffect
    exact (((((htx.append hwin (by omega) (by omega)).append hcycle (by omega) (by omega)).append hlink (by omega)
      (by omega)).append hreset (by omega) (by omega)).append hengine (by omega) (by omega)).1
  · exact List.Pairwise.nil

/-- Settles O2: the step by the events due, then the events one kind after the other. -/
theorem emptyQueueStep : Obligations.EmptyQueueStep := by
  intro s hpend
  have hstep : step s = .next s.idleStep := by simp only [step, hpend]
  refine ⟨fun hp => ?_, fun hp hdue => ?_, fun hp hdue => ?_, fun hp => ⟨fun c => ?_, ?_⟩, by decide, fun k hk => ?_⟩
  · rw [hstep, State.idleStep, if_neg hp]
  · rw [hstep, State.idleStep, if_pos hp]
    split
    next h => exact absurd h hdue
    next h => rw [h]
  · rw [hstep, State.idleStep, if_pos hp, hdue]
    dsimp only
    unfold State.take
    have he : s.countQuantum.mgmt.engine = s.mgmt.engine := rfl
    have hr : s.countQuantum.mgmt.requests = s.mgmt.requests := rfl
    rw [he, hr]
    rcases s.mgmt.engine with - | - | - <;> rcases s.mgmt.requests with - | - <;> rfl
  · have hdrain : s.drainComplete = true ↔ (∀ p, (s.port p).tx = none) ∧ ∃ d, s.mgmt.drain = some d ∧
        ∀ p k, d.queue = some (p, k) → ∀ x ∈ s.egress p k, x.origin = .management → x.slot ≠ d.slot := by
      simp only [State.drainComplete_iff, State.drainReplyWaits_iff, not_exists, not_and]
      exact and_congr_right fun _ => exists_congr fun d => and_congr_right fun _ =>
        ⟨fun h p k hq x => h p k x hq, fun h p k x hq => h p k hq x⟩
    have hlink : ∀ p, s.linkCheckDue p = true ↔ (s.port p).lastCheck + 12500 ≤ s.refCount :=
      fun p => decide_eq_true_iff
    rw [State.mem_dueEvents hp, hdrain]
    simp only [State.transmissionDue_iff, State.windowEventDue_iff_opens, State.cycleEndDue, hlink, decide_eq_true_eq,
      exists_and_left]
  · refine s.pairwise_dueEvents.imp fun {a b} hab => ?_
    intro rank
    have hrank : ∀ c, rank c = dueRank c := fun c => by cases c <;> rfl
    rwa [hrank, hrank]
  · unfold requestCommand
    split
    case h_19 => rfl
    all_goals omega

end Sys2Proof.Machine
end

section
/-! Receptions (R3 to R6): their start, their kind field, and the ends that lose or discard a frame, hand it to the
classifier, or copy a SYNC (O8, O9, O10, O11, O14). -/

namespace Sys2Proof.Machine

open Sys2Proof

/-! ### Starts and kind fields -/

/-- Settles O8. -/
theorem receptionStartTakesTheHeadSlot : Obligations.ReceptionStartTakesTheHeadSlot := by
  intro s p hp
  refine ⟨fun hup hrx hdrain => ?_, fun h => ?_⟩
  · have hmay : s.mayReceive p = true := by simp [State.mayReceive, State.isUp, hp, hup, hrx, hdrain]
    simp only [exec, execReceptionStart, hmay, if_true, State.startReception, State.takeSlot]
    cases s.store.free <;> rfl
  · have hmay : s.mayReceive p = false := by
      rw [Bool.eq_false_iff]
      intro hmay
      simp only [State.mayReceive, State.isUp, Bool.and_eq_true, decide_eq_true_eq, Option.isNone_iff_eq_none] at hmay
      exact h.elim (fun h => h hmay.1.1.2) fun h => h hmay.2
    simp only [exec, execReceptionStart, hmay, Bool.false_eq_true, if_false]

section

variable {s : State} {p : Port} {rx : Reception} {k : Byte} {bytes : List Byte}

theorem exec_receptionEnd (hp : s.power = .running) :
    exec (.receptionEnd p bytes) s = .next (s.endReception p bytes).settle := by
  simp only [exec, execReceptionEnd, if_pos hp]

theorem exec_kindFieldReceived (hp : s.power = .running) :
    exec (.kindFieldReceived p k) s = .next (s.receiveKind p k) := by
  simp only [exec, execKindFieldReceived, if_pos hp]

theorem State.receiveKind_known (hrx : (s.port p).rx = some rx) (hk : rx.kind ≠ none) : s.receiveKind p k = s := by
  simp only [State.receiveKind, hrx, if_pos (Option.isSome_iff_ne_none.mpr hk)]

theorem State.receiveKind_sync (hrx : (s.port p).rx = some rx) (hk : rx.kind = none) (hsync : k = kindSync) :
    s.receiveKind p k =
      (s.modPort p fun u => { u with rx := some { rx with kind := some k, slot := none } }).releaseSlot? rx.slot := by
  simp [State.receiveKind, hrx, hk, hsync]

theorem State.receiveKind_other (hrx : (s.port p).rx = some rx) (hk : rx.kind = none) (hsync : k ≠ kindSync) :
    s.receiveKind p k = s.modPort p fun u => { u with rx := some { rx with kind := some k } } := by
  simp [State.receiveKind, hrx, hk, hsync]

/-- Once a reception's kind is known, its end does not act on the kind field again. -/
theorem State.finishKind_known (hrx : (s.port p).rx = some rx) (hk : rx.kind ≠ none) : s.finishKind p bytes = s := by
  unfold State.finishKind
  split
  · exact State.receiveKind_known hrx hk
  · rfl

/-- The end of a reception whose kind field needs no action. -/
theorem State.endReception_eq (hrx : (s.port p).rx = some rx) (hf : s.finishKind p bytes = s) :
    s.endReception p bytes =
      if rx.slot = none ∧ rx.kind.getD 0 ≠ kindSync then
        s.modPort p fun u => { u with rx := none, counters := u.counters.incNoBuffer }
      else (s.modPort p fun u => { u with rx := none }).checkAndHandOn p rx (rx.kind.getD 0) bytes := by
  simp [State.endReception, hf, hrx, State.countPort]

/-- After the kind field was acted on, the reception's kind is known. -/
theorem State.rx_receiveKind (hrx : (s.port p).rx = some rx) (hk : rx.kind = none) :
    ∃ rx', ((s.receiveKind p k).port p).rx = some rx' ∧ rx'.kind ≠ none := by
  by_cases hsync : k = kindSync
  · exact ⟨{ rx with kind := some k, slot := none }, by simp [State.receiveKind_sync hrx hk hsync], by simp⟩
  · exact ⟨{ rx with kind := some k }, by simp [State.receiveKind_other hrx hk hsync], by simp⟩

/-- Settles O9. -/
theorem kindFieldSettlesTheSlot : Obligations.KindFieldSettlesTheSlot := by
  intro s p rx k bytes hp hrx
  refine ⟨fun hk h2 => ?_, fun hk h2 => ?_, fun hslot h => ?_, fun hk hb => ?_⟩
  · rw [exec_kindFieldReceived hp, State.receiveKind_sync hrx hk h2]
  · rw [exec_kindFieldReceived hp, State.receiveKind_other hrx hk h2]
  · have hf : s.finishKind p bytes = s ∧ rx.kind.getD 0 ≠ kindSync := by
      rcases h with ⟨hk, hlen⟩ | ⟨hk, h2⟩
      · refine ⟨?_, by rw [hk]; decide⟩
        rw [State.finishKind, List.getElem?_eq_none hlen]
      · exact ⟨State.finishKind_known hrx (by simp [hk]), by rwa [hk]⟩
    rw [exec_receptionEnd hp, State.endReception_eq hrx hf.1, if_pos ⟨hslot, hf.2⟩]
  · obtain ⟨rx', hrx', hk'⟩ := State.rx_receiveKind (k := k) hrx hk
    refine ⟨s.receiveKind p k, exec_kindFieldReceived hp, ?_⟩
    have hf : s.finishKind p bytes = s.receiveKind p k := by rw [State.finishKind, hb]
    have hf' : (s.receiveKind p k).finishKind p bytes = s.receiveKind p k := State.finishKind_known hrx' hk'
    rw [exec_receptionEnd hp, exec_receptionEnd (by simpa using hp)]
    simp only [State.endReception, hf, hf', hrx']

/-! ### Ends that discard or hand on -/

/-- The end of a reception that holds a slot, or of a SYNC (R5, R6). -/
theorem State.endReception_checks (hrx : (s.port p).rx = some rx) (hk : rx.kind = some k)
    (hs : rx.slot ≠ none ∨ k = kindSync) : s.endReception p bytes =
      (s.modPort p fun u => { u with rx := none }).checkAndHandOn p rx k bytes := by
  rw [State.endReception_eq hrx (State.finishKind_known hrx (by simp [hk])), hk]
  refine if_neg fun ⟨h1, h2⟩ => ?_
  exact hs.elim (· h1) fun h => h2 h

/-- The length check of R5 fails. -/
theorem ingressCheck_badLength (h : bytes.length < 32 ∨ 512 < bytes.length) : ingressCheck bytes k = .lengthError :=
  if_pos h

theorem ingressCheck_badCheck (h1 : 32 ≤ bytes.length) (h2 : bytes.length ≤ 512)
    (h : (crc32 (bytes.take (bytes.length - 4))).toNat ≠ numAt bytes (bytes.length - 4) 4) :
    ingressCheck bytes k = .crcError := by
  rw [ingressCheck, if_neg (by omega), if_pos h]

theorem ingressCheck_badFields (h1 : 32 ≤ bytes.length) (h2 : bytes.length ≤ 512)
    (hcrc : (crc32 (bytes.take (bytes.length - 4))).toNat = numAt bytes (bytes.length - 4) 4)
    (h : frameLength bytes ≠ bytes.length ∨ ¬ (1 ≤ k.toNat ∧ k.toNat ≤ 5) ∨ (k = kindSync ∧ frameLength bytes ≠ 32)) :
    ingressCheck bytes k = .lengthError := by
  rw [ingressCheck, if_neg (by omega), if_neg (by simpa using hcrc)]
  split_ifs with hlen hkind hsync
  · rfl
  · rfl
  · rfl
  · have hframe : isFrameKind k = true := by simpa using hkind
    simp only [isFrameKind, Bool.and_eq_true, decide_eq_true_eq] at hframe
    exact absurd h (by simp only [hlen, hframe, hsync]; simp)

theorem ingressCheck_arrival (h : ingressCheck bytes k = .arrival) : 32 ≤ bytes.length ∧ bytes.length ≤ 512 := by
  unfold ingressCheck at h
  split_ifs at h
  omega

/-- Settles O10: whichever check fails first, its counter rises and the slot is released. -/
theorem failedReceptionIsDiscarded : Obligations.FailedReceptionIsDiscarded := by
  intro s p rx k bytes inc hp hrx hk hs h
  rw [exec_receptionEnd hp, State.endReception_checks hrx hk hs, State.checkAndHandOn]
  rcases h with ⟨hlen, rfl⟩ | ⟨h1, h2, hcrc, rfl⟩ | ⟨h1, h2, hcrc, hfields, rfl⟩
  · rw [ingressCheck_badLength hlen]
  · rw [ingressCheck_badCheck h1 h2 hcrc]
  · rw [ingressCheck_badFields h1 h2 hcrc hfields]

/-! ### The classifier's arrival -/

theorem readBytes_take (m : List Host.Cell) (a : Nat) {k n : Nat} (h : k ≤ n) :
    readBytes m a k = (readBytes m a n).take k := by
  simp [readBytes, ← List.map_take, List.take_range, Nat.min_eq_left h]

theorem byteAt_take (bs : List Byte) {i n : Nat} (h : i < n) : byteAt (bs.take n) i = byteAt bs i := by
  simp [byteAt, h]

theorem numAt_take (bs : List Byte) {i k n : Nat} (h : i + k ≤ n) : numAt (bs.take n) i k = numAt bs i k := by
  rw [numAt, numAt, List.drop_take, List.take_take, Nat.min_eq_left (by omega)]

/-- The first bytes of a frame that was just stored. -/
theorem State.slotBytes_of_stored (s : State) {n k : Nat} (hn : n < 384) (hk : k ≤ bytes.length)
    (hb : bytes.length ≤ 512) : (s.writeSlot n bytes).slotBytes n k = bytes.take k := by
  have h := s.slotBytes_writeSlot n bytes hn hb
  rw [State.slotBytes, readBytes_take _ _ hk]
  exact congrArg (List.take k) h

/-- Settles O14: the header fields are read back from the slot that the frame was stored in. -/
theorem arrivalReachesTheClassifier : Obligations.ArrivalReachesTheClassifier := by
  intro s p rx k n bytes hp hrx hk h2 hslot hn hcheck
  obtain ⟨hlong, hfit⟩ := ingressCheck_arrival hcheck
  have hbytes := (s.modPort p fun u => { u with rx := none, counters := u.counters.incReceived }).slotBytes_of_stored hn
    (show 16 ≤ bytes.length by omega) hfit
  have hstored : ((s.modPort p fun u => { u with rx := none }).writeSlot n bytes).countPort p PortCounters.incReceived =
      (s.modPort p fun u => { u with rx := none, counters := u.counters.incReceived }).writeSlot n bytes := by
    simp only [State.writeSlot, if_pos (show n < Config.slots from hn)]
    cases p <;> rfl
  rw [exec_receptionEnd hp, State.endReception_checks hrx hk (.inl (by simp [hslot])), State.checkAndHandOn, hcheck]
  have hsync : k ≠ kindSync := h2
  simp only [State.storeBytes, hslot, State.handOn, if_neg hsync]
  have harrival : ∀ u : State, u.slotBytes n 16 = bytes.take 16 → ∀ stamp, u.arrivalIn p n stamp k bytes.length =
      { port := p, slot := n, stamp := stamp, dst := byteAt bytes 0, src := byteAt bytes 1, kind := k
        sequence := byteAt bytes 3, tag := BitVec.ofNat 16 (numAt bytes 4 2), length := bytes.length } := by
    intro u hu stamp
    simp only [State.arrivalIn, hu, frameDst, frameSrc, frameSeq, frameTag, byteAt_take _ (show 0 < 16 by omega),
      byteAt_take _ (show 1 < 16 by omega), byteAt_take _ (show 3 < 16 by omega),
      numAt_take _ (show 4 + 2 ≤ 16 by omega)]
  rw [hstored, harrival _ hbytes]
  simp

/-! ### SYNC arrivals -/

/-- A SYNC is filled into the holder of an UP port (R33). -/
theorem State.fillHolder_up {h : HeldSync} {q : Port} (hup : (s.port q).state = .up) :
    State.fillHolder h s q = (s.modPort q fun u => { u with
      holder := some h
      counters := if u.holder = none then u.counters else u.counters.incSyncReplaced }).raise q := by
  simp only [State.fillHolder, State.isUp, hup, decide_true, if_true]
  by_cases hfree : (s.port q).holder = none
  · simp only [hfree, Option.isSome_none, Bool.false_eq_true, if_false]
    exact congrArg (State.raise · q) (State.modPort_congr (by simp [hfree]))
  · simp only [Option.isSome_iff_ne_none.mpr hfree, if_true, State.countPort, State.modPort_modPort]
    exact congrArg (State.raise · q) (State.modPort_congr (by simp [hfree]))

theorem State.fillHolder_down {h : HeldSync} {q : Port} (hup : (s.port q).state ≠ .up) : State.fillHolder h s q = s := by
  simp [State.fillHolder, State.isUp, hup]

/-- What filling the holders of some ports leaves (R33). -/
def State.HoldersFilled (s u : State) (ports : List Port) (h : HeldSync) : Prop :=
  u = { s with ports := u.ports, opportunities := u.opportunities } ∧
  ∀ q, (q ∈ ports → (s.port q).state = .up →
      u.port q = { s.port q with
        holder := some h
        counters := if (s.port q).holder = none then (s.port q).counters else (s.port q).counters.incSyncReplaced } ∧
      u.opportunities.get q = true) ∧
    (q ∉ ports ∨ (s.port q).state ≠ .up → u.port q = s.port q ∧ u.opportunities.get q = s.opportunities.get q)

theorem State.holdersFilled_foldl (h : HeldSync) {ports : List Port} (hnodup : ports.Nodup) (s : State) :
    s.HoldersFilled (ports.foldl (State.fillHolder h) s) ports h := by
  induction ports generalizing s with
  | nil => exact ⟨rfl, fun q => ⟨fun hq => by simp at hq, fun _ => ⟨rfl, rfl⟩⟩⟩
  | cons p ports ih =>
    obtain ⟨hp, hnodup⟩ := List.nodup_cons.mp hnodup
    obtain ⟨hrest, hports⟩ := ih hnodup (State.fillHolder h s p)
    rw [List.foldl_cons]
    by_cases hup : (s.port p).state = .up
    · rw [State.fillHolder_up hup] at hrest hports ⊢
      refine ⟨hrest, fun q => ?_⟩
      by_cases hq : q = p
      · subst hq
        have := (hports q).2 (.inl hp)
        exact ⟨fun _ _ => ⟨by rw [this.1]; simp, by simpa using this.2⟩,
          fun h => absurd h (by simp [hup])⟩
      · have hport : ∀ f, ((s.modPort p f).raise p).port q = s.port q := fun f => by
          change (s.modPort p f).port q = _
          rw [State.port_modPort, if_neg hq]
        have hopp : ∀ f, ((s.modPort p f).raise p).opportunities.get q = s.opportunities.get q := fun f =>
          Trio.get_set_other _ _ hq
        have := hports q
        rw [hport, hopp] at this
        simpa [hq] using this
    · rw [State.fillHolder_down hup] at hrest hports ⊢
      refine ⟨hrest, fun q => ?_⟩
      by_cases hq : q = p
      · subst hq
        exact ⟨fun _ h => absurd h hup, fun _ => (hports q).2 (.inr hup)⟩
      · simpa [hq] using hports q

/-- The copies of a SYNC arrival go to the other ports that are UP (R33). -/
theorem State.syncCopied_foldl (s : State) (p : Port) (h : HeldSync) :
    s.SyncCopied ((otherPorts p).foldl (State.fillHolder h) s) p h := by
  obtain ⟨hrest, hports⟩ := s.holdersFilled_foldl h (show (otherPorts p).Nodup by cases p <;> decide)
  have hmem : ∀ q, q ∈ otherPorts p ↔ q ≠ p := by intro q; cases p <;> cases q <;> decide
  refine ⟨hrest, fun q => ⟨fun hq => (hports q).1 ((hmem q).mpr hq), fun hq => (hports q).2 (hq.imp_left ?_)⟩⟩
  rintro rfl
  simp [hmem]

/-- The end of a SYNC reception that passes the checks (R6). -/
theorem exec_receptionEnd_sync (hp : s.power = .running) (hrx : (s.port p).rx = some rx) (hk : rx.kind = some 0x02)
    (hslot : rx.slot = none) (hcheck : ingressCheck bytes 0x02 = .arrival) :
    exec (.receptionEnd p bytes) s = .next (State.settle
      (if s.timingPort = p then
        State.syncArrival (s.modPort p fun u => { u with rx := none, counters := u.counters.incReceived }) p rx
          (parseSync bytes)
      else s.modPort p fun u => { u with rx := none, counters := u.counters.incReceived.incForeignSync })) := by
  have htiming : ∀ f, (s.modPort p f).timingPort = s.timingPort := fun f => rfl
  rw [exec_receptionEnd hp, State.endReception_checks hrx hk (.inr rfl), State.checkAndHandOn, hcheck]
  simp only [State.storeBytes, hslot, State.handOn, State.countPort, State.modPort_modPort, htiming]
  rfl

/-- Settles O11: the foreign SYNC is counted, and the other one is copied by `State.syncCopied_foldl`. -/
theorem syncArrivalIsCopiedOrForeign : Obligations.SyncArrivalIsCopiedOrForeign := by
  intro s p rx bytes hp hrx hk hslot hcheck
  rw [exec_receptionEnd_sync hp hrx hk hslot hcheck]
  refine ⟨fun ht => by rw [if_neg ht], fun ht => ⟨_, by rw [if_pos ht], ?_⟩⟩
  generalize hv : (s.modPort p fun u => { u with rx := none, counters := u.counters.incReceived }) = v
  have hport : ∀ q, v.port q = if q = p then { s.port p with rx := none, counters := (s.port p).counters.incReceived }
      else s.port q := by
    rw [← hv]
    exact fun q => s.port_modPort p q _
  have hstate : ∀ q, (v.port q).state = (s.port q).state ∧ (v.port q).holder = (s.port q).holder := by
    intro q
    rw [hport]
    split
    · subst_vars; exact ⟨rfl, rfl⟩
    · exact ⟨rfl, rfl⟩
  unfold State.syncArrival
  extract_lets w
  have hw : ∀ q, (w.port q).state = (s.port q).state ∧ (w.port q).holder = (s.port q).holder := by
    intro q
    rw [← (hstate q).1, ← (hstate q).2]
    unfold w
    split <;> simp
  obtain ⟨hrest, hports⟩ := w.syncCopied_foldl p ⟨parseSync bytes, rx.start⟩
  refine ⟨fun q hq hup => ?_, fun q hq => ?_, fun hunusable => ?_⟩
  · obtain ⟨h1, h2⟩ := (hports q).1 hq ((hw q).1.trans hup)
    exact ⟨by rw [h1], h2⟩
  · rw [((hports q).2 (hq.imp_right fun h => by rwa [(hw q).1])).1, (hw q).2]
  · have hwv : w = v := by
      refine if_neg ?_
      have hbase : v.base = s.base := by rw [← hv]; rfl
      simp only [State.syncUsable, Bool.and_eq_true, decide_eq_true_eq, hbase]
      rintro ⟨h1, h2⟩
      rcases hunusable with h | h
      · simp [h] at h1
      · omega
    rw [hwv] at hrest hports ⊢
    have hopp : v.opportunities = s.opportunities := by rw [← hv]; rfl
    refine ⟨?_, ?_, fun q hq hup => ?_, fun q hq hup => ?_, fun q hq => ?_⟩
    · rw [hrest, ← hv]
      rfl
    · rw [((hports p).2 (.inl rfl)).1, hport, if_pos rfl]
    · have h := ((hports q).1 hq ((hstate q).1.trans hup)).1
      rwa [hport, if_neg hq] at h
    · rw [((hports q).2 (.inr (by rwa [(hstate q).1]))).1, hport, if_neg hq]
    · rw [((hports q).2 (hq.imp_right fun h => by rwa [(hstate q).1])).2, hopp]

end

end Sys2Proof.Machine
end

section
/-! The servo at the end of a SYNC reception (R22 to R29): a correction (O12) and a phase step (O13). -/

namespace Sys2Proof.Machine

open Sys2Proof

/-! ### The per-stream state beside the counters -/

/-- The per-stream state but its counters (3.6). -/
def StreamState.rest (st : StreamState) : Option Stamp × Nat × Option Byte := (st.stamp, st.budgetUsed, st.expectation)

/-- The per-stream state of every index but its counters. -/
def State.streamRests (s : State) : List (Option Stamp × Nat × Option Byte) := s.streams.map StreamState.rest

theorem State.rest_stream {s t : State} (h : t.streamRests = s.streamRests) (i : Byte) :
    (t.stream i).rest = (s.stream i).rest := by
  have hget : ∀ u : State, (u.stream i).rest = (u.streamRests[i.toNat]?).getD StreamState.initial.rest := by
    intro u
    rw [State.stream, State.streamRests, List.getElem?_map, List.getD_eq_getElem?_getD]
    cases u.streams[i.toNat]? <;> rfl
  rw [hget, hget, h]

theorem State.stream_of_rest {s t : State} (h : t.streamRests = s.streamRests) (i : Byte) :
    (t.stream i).stamp = (s.stream i).stamp ∧ (t.stream i).budgetUsed = (s.stream i).budgetUsed ∧
      (t.stream i).expectation = (s.stream i).expectation := by
  have := State.rest_stream h i
  simpa [StreamState.rest] using this

/-- Two states whose streams stand alike but for their counters. -/
abbrev State.SameStreams (s t : State) : Prop := t.streamRests = s.streamRests

section

variable {s : State}

theorem State.sameStreams_of_streams {t : State} (h : t.streams = s.streams) : s.SameStreams t := by
  simp [State.SameStreams, State.streamRests, h]

theorem State.sameStreams_countStream (i : Byte) (f : StreamCounters → StreamCounters) :
    s.SameStreams (s.countStream i f) := by
  rw [State.SameStreams, State.streamRests, State.streamRests]
  refine List.ext_getElem? fun j => ?_
  simp only [State.countStream, State.streams_modStream, List.getElem?_map, List.getElem?_modify]
  cases s.streams[j]? with
  | none => rfl
  | some st => simp only [Option.map_some]; split <;> rfl

theorem State.sameStreams_dropCopy (i : Byte) (n : Nat) : s.SameStreams (s.dropCopy i n) :=
  (State.sameStreams_of_streams (by simp [State.dropCopy])).trans (s.sameStreams_countStream i StreamCounters.incDropped)

theorem State.sameStreams_dispose (r : Reason) (p : Port) (d : Desc) : s.SameStreams (State.dispose r p s d) := by
  unfold State.dispose
  split
  · split
    · split
      · exact State.sameStreams_of_streams (by simp)
      · exact State.sameStreams_dropCopy (s := s.overflow) _ _
    all_goals exact State.sameStreams_dropCopy _ _
  all_goals exact State.sameStreams_of_streams (by simp)

theorem State.sameStreams_takeLate (p : Port) (d : Desc) : s.SameStreams (State.takeLate p s d) := by
  unfold State.takeLate
  split
  · exact (State.sameStreams_dispose ..).trans (State.sameStreams_countStream ..)
  all_goals exact State.sameStreams_dispose ..

theorem State.sameStreams_checkQueue (p : Port) (c : Cls) : s.SameStreams (State.checkQueue p s c) := by
  have h := foldl_keeps (P := s.SameStreams) (fun d h => (State.sameStreams_takeLate p d).trans h)
    ((s.egress p c).filter (Desc.isLate s.timer.cycleCount))
    (s := s.setEgress p c ((s.egress p c).filter fun d => !d.isLate s.timer.cycleCount)) rfl
  unfold State.checkQueue
  extract_lets q late u
  split <;> exact h

theorem State.sameStreams_disposeQueues (p : Port) : s.SameStreams (s.disposeQueues p) :=
  foldl_keeps (P := s.SameStreams) (fun {t} c h => (foldl_keeps (P := t.SameStreams)
    (fun d h => (State.sameStreams_dispose .portDown p d).trans h) (t.egress p c) (s := t.setEgress p c []) rfl).trans h)
    allClasses rfl

theorem State.sameStreams_closeEvery (check : Bool) : s.SameStreams (s.closeEvery check) := by
  refine foldl_keeps (P := s.SameStreams) (fun {t} p h => ?_) allPorts rfl
  unfold State.closeAll
  extract_lets ws u
  split
  · exact (foldl_keeps (P := t.SameStreams) (fun c h => (State.sameStreams_checkQueue p c).trans h) (closingClasses ws)
      (s := u) rfl).trans h
  · exact h

theorem State.sameStreams_renewal (check : Bool) (due : WindowEntry → Bool) : s.SameStreams (s.renewal check due) :=
  (State.sameStreams_of_streams (by simp [State.renewal])).trans (s.sameStreams_closeEvery check)

end

/-! ### The timer with a change of the sync state -/

/-- A change of the timer and of the sync state (R32). -/
theorem State.changeSync_modTimer (s : State) (f : Timer → Timer) (st : SyncState) (h : (f s.timer).sync = s.timer.sync) :
    (s.modTimer f).changeSync st = s.retimed { f s.timer with sync := st } := by
  simp only [State.changeSync, State.retimed, State.timer_modTimer, h]
  by_cases e : s.timer.sync = st
  · rw [if_pos e, if_pos e.symm]
    have : { f s.timer with sync := st } = f s.timer := by rw [← e, ← h]
    rw [this]
    rfl
  · rw [if_neg e, if_neg (Ne.symm e)]
    rfl

@[simp] theorem State.retimed_frame (s : State) (t : Timer) : (s.retimed t).timer = t ∧ (s.retimed t).store = s.store ∧
    (s.retimed t).streams = s.streams ∧ (s.retimed t).retention = s.retention ∧ (s.retimed t).gen = s.gen ∧
    (s.retimed t).straps = s.straps ∧ (s.retimed t).ports = s.ports ∧ (s.retimed t).queues = s.queues ∧
    (s.retimed t).gates = s.gates ∧ (s.retimed t).opportunities = s.opportunities ∧ (s.retimed t).power = s.power ∧
    (s.retimed t).refCount = s.refCount ∧ (s.retimed t).pending = s.pending := by
  unfold State.retimed
  split <;> simp

theorem State.mgmt_noticeEvent (s : State) (k : NoticeKind) :
    (s.noticeEvent k).mgmt = { s.mgmt with notices := (s.noticeEvent k).mgmt.notices } := by
  unfold State.noticeEvent
  split <;> rfl

theorem State.mgmt_retimed (s : State) (t : Timer) :
    (s.retimed t).mgmt = { s.mgmt with notices := (s.retimed t).mgmt.notices } := by
  unfold State.retimed
  split
  · rfl
  · exact State.mgmt_noticeEvent _ _

/-! ### The rows of R25 and R29 -/

theorem servoError_of_row {b : BaseRecord} {stamp : Stamp} {e : Nat} {err : Int} {adjusted : W16 × Nat}
    (h : ErrorRow b stamp e err adjusted) : servoError b stamp e = (err, adjusted) := by
  have hhalf : ((b.cycleLength.toNat / 2 : Nat) : Int) = (b.cycleLength.toNat : Int) / 2 := rfl
  simp only [ErrorRow, hhalf] at h
  simp only [servoError, advanceCycles, backOneCycle]
  rcases h with ⟨h1, rfl, rfl⟩ | ⟨h1, h2, rfl, rfl⟩ | ⟨h1, rfl, rfl⟩
  · rw [if_pos h1]
  · rw [if_neg (by omega), if_neg (by omega)]
  · rw [if_neg (by omega), if_pos h1]

/-- The band of an error without a count mismatch (R29). -/
theorem errorBand_of_step {b : BaseRecord} {err : Int} (h : err.natAbs ≤ b.stepThreshold.toNat) :
    errorBand b err false = if err.natAbs ≤ b.lockWindow.toNat then .inLock else .inStep := by
  rw [errorBand, if_neg (by simpa using h)]
  exact (if_congr Nat.not_le.symm rfl rfl).trans (ite_not ..)

/-- The rows of R29 that correct: the new sync state and good count. -/
theorem servoAct_correct (sync : SyncState) (good : Nat) (lock : Prop) [Decidable lock] : sync ≠ .free →
    servoAct sync good (if lock then .inLock else .inStep) = .correct
      (match sync with
        | .free => .free
        | .acquiring => if lock ∧ 8 ≤ good + 1 then .locked else .acquiring
        | .locked => .locked
        | .holdover => if lock then .locked else .acquiring)
      (match sync with
        | .free => good
        | .acquiring => if lock then (if 8 ≤ good + 1 then 8 else good + 1) else 0
        | .locked => good
        | .holdover => if lock then good else 0) := by
  intro h
  by_cases hl : lock
  · cases sync with
    | free => exact absurd rfl h
    | acquiring =>
      by_cases h8 : 8 ≤ good + 1 <;> simp [hl, h8, servoAct, Config.lockCount]
    | locked | holdover => simp only [hl, if_true, servoAct]
  · cases sync with
    | free => exact absurd rfl h
    | acquiring | locked | holdover => simp only [hl, if_false, false_and, servoAct]

/-- A step is taken in FREE, beyond the step threshold and at a count mismatch (R29). -/
theorem servoAct_step {b : BaseRecord} {sync : SyncState} {good : Nat} {err : Int} {mismatch : Bool}
    (h : sync = .free ∨ b.stepThreshold.toNat < err.natAbs ∨ mismatch = true) :
    servoAct sync good (errorBand b err mismatch) = .step := by
  rcases h with rfl | h
  · rfl
  · have hband : errorBand b err mismatch = .beyond := if_pos (by simpa [or_comm] using h)
    rw [hband]
    cases sync <;> rfl

/-! ### The correction -/

section

variable {s : State} {p : Port} {rx : Reception} {bytes : List Byte}

/-- The end of a usable SYNC's reception (R6, R23, R33). -/
theorem exec_receptionEnd_usable (hp : s.power = .running) (hrx : (s.port p).rx = some rx) (hk : rx.kind = some 0x02)
    (hslot : rx.slot = none) (hcheck : ingressCheck bytes 0x02 = .arrival) (ht : s.timingPort = p)
    (hat : rx.atTiming = true) (hindex : (parseSync bytes).index.toNat < s.base.cyclesPerRound.toNat) :
    exec (.receptionEnd p bytes) s = .next (State.settle ((otherPorts p).foldl
      (State.fillHolder ⟨parseSync bytes, rx.start⟩) (State.useSync
        (s.modPort p fun u => { u with rx := none, counters := u.counters.incReceived }) rx (parseSync bytes)))) := by
  have husable : (s.modPort p fun u => { u with rx := none, counters := u.counters.incReceived }).syncUsable rx
      (parseSync bytes) = true := by
    rw [State.syncUsable, hat, Bool.true_and]
    exact decide_eq_true hindex
  rw [exec_receptionEnd_sync hp hrx hk hslot hcheck, if_pos ht, State.syncArrival, if_pos husable]

/-- The state with the timer that a correction gives (R22, R26, R29). -/
theorem State.useSync_correct (v : State) (f : SyncFrame) {err : Int} {adjusted : W16 × Nat} {sync : SyncState} {good : Nat}
    (herr : servoError v.base rx.stamp (expectedPoint v.base f).2.2 = (err, adjusted))
    (hact : servoAct v.timer.sync v.timer.good (errorBand v.base err
      (!decide (adjusted = ((expectedPoint v.base f).1, (expectedPoint v.base f).2.1)))) = .correct sync good) :
    v.useSync rx f = State.gatesSyncEvent v.scheduleRuns (v.retimed { v.timer with
      missed := 0, used := true, lastErr := err, trim := max (-32767) (min 32767 (v.timer.trim + 4 * err))
      slew := some (err.tdiv 2), sync := sync, good := good }) := by
  unfold State.useSync
  extract_lets point m mismatch act s1
  have hm : m = (err, adjusted) := herr
  have hact' : act = .correct sync good := by
    unfold act mismatch
    rw [hm]
    exact hact
  have hs1 : s1 = v.modTimer fun t => { t with missed := 0, used := true, lastErr := err } := by
    unfold s1
    rw [hm]
  have hretimed := State.changeSync_modTimer s1 (fun t => { t.correct err with good := good }) sync rfl
  simp only [hact', State.servoCorrect, hm, hretimed]
  rw [hs1]
  rfl

theorem State.gatesOnly_gatesSyncEvent (s : State) (was : Bool) : s.GatesOnly (State.gatesSyncEvent was s) := by
  unfold State.gatesSyncEvent
  split
  · exact s.gatesOnly_withdraw.trans (State.gatesOnly_evaluateEvery _ _)
  · exact (s.gatesOnly_openEvery _).trans (State.gatesOnly_evaluateEvery _ _)
  · rfl

/-- Settles O12: the correction is `State.useSync_correct`, the gates follow by O34, and the copies by
`State.syncCopied_foldl`. -/
theorem servoCorrects : Obligations.ServoCorrects := by
  intro s p rx bytes err k e adjusted hp hrx hk hslot hcheck ht hat hindex hk' he hrow hadj hstep hfree arrived v
  subst hk' he
  have hpoint : expectedPoint s.base (parseSync bytes) = (adjusted.1, adjusted.2,
      ((parseSync bytes).correction.toNat + s.base.linkDelay.toNat) % s.base.cycleLength.toNat) := by
    rw [hadj]
    rfl
  have hact := servoAct_correct s.timer.sync s.timer.good (err.natAbs ≤ s.base.lockWindow.toNat) hfree
  rw [← errorBand_of_step hstep] at hact
  have hmatch : (!decide (adjusted = (adjusted.1, adjusted.2))) = false := by simp
  have huse : arrived.useSync rx (parseSync bytes) = State.gatesSyncEvent s.scheduleRuns v := by
    rw [arrived.useSync_correct (parseSync bytes) (err := err) (adjusted := adjusted) (by
      change servoError s.base rx.stamp (expectedPoint s.base (parseSync bytes)).2.2 = _
      rw [hpoint]
      exact servoError_of_row hrow) (by
      change servoAct s.timer.sync s.timer.good (errorBand s.base err (!decide (adjusted =
        ((expectedPoint s.base (parseSync bytes)).1, (expectedPoint s.base (parseSync bytes)).2.1)))) = _
      rw [hpoint, hmatch]
      exact hact)]
    rfl
  have hcopied := (State.gatesSyncEvent s.scheduleRuns v).syncCopied_foldl p ⟨parseSync bytes, rx.start⟩
  have hexec := exec_receptionEnd_usable hp hrx hk hslot hcheck ht hat hindex
  rw [huse] at hexec
  generalize (otherPorts p).foldl (State.fillHolder ⟨parseSync bytes, rx.start⟩) (State.gatesSyncEvent s.scheduleRuns v) =
    u at *
  have hu := hcopied.1
  refine ⟨State.gatesSyncEvent s.scheduleRuns v, u, _, hexec, rfl, ?_, hcopied, ?_⟩
  · rw [← s.scheduleRuns_iff]
    exact v.syncEvent_gatesSyncEvent _
  · simp only [State.settle_frame]
    rw [hu, v.gatesOnly_gatesSyncEvent s.scheduleRuns]
    exact ⟨by simp [v, arrived], by simp [v, arrived], by simp [v, arrived], by simp [v, arrived],
      by simp [v, arrived], arrived.mgmt_retimed _, rfl⟩

/-! ### The phase step -/

/-- The state with the timer that a phase step gives, at the gate controller and then at generation control (R27, R28). -/
theorem State.useSync_step (v : State) (f : SyncFrame) {err : Int} {adjusted : W16 × Nat}
    (herr : servoError v.base rx.stamp (expectedPoint v.base f).2.2 = (err, adjusted))
    (hact : servoAct v.timer.sync v.timer.good (errorBand v.base err
      (!decide (adjusted = ((expectedPoint v.base f).1, (expectedPoint v.base f).2.1)))) = .step) :
    v.useSync rx f = (v.retimed { Timer.land v.base (expectedPoint v.base f) (v.refCount - rx.start)
      { v.timer with missed := 0, used := true, lastErr := err } with
        good := 0, sync := .acquiring }).gatesStep.commitStep := by
  unfold State.useSync
  extract_lets point m mismatch act s1
  have hm : m = (err, adjusted) := herr
  have hact' : act = .step := by
    unfold act mismatch
    rw [hm]
    exact hact
  have hs1 : s1 = v.modTimer fun t => { t with missed := 0, used := true, lastErr := err } := by
    unfold s1
    rw [hm]
  have hretimed := State.changeSync_modTimer (v.modTimer fun t => { t with missed := 0, used := true, lastErr := err })
    (fun t => { t.land v.base point (v.refCount - rx.start) with good := 0 }) .acquiring rfl
  simp only [hact', hs1]
  exact congrArg (fun z : State => z.gatesStep.commitStep) hretimed

/-- Management states that differ at most in the notices (R146, R147). -/
theorem Management.eq_of_kept {m n : Management} (hrequests : m.requests = n.requests) (hengine : m.engine = n.engine)
    (hanswered : m.answered = n.answered) (hcontrol : m.portControl = n.portControl)
    (hconditions : m.conditions = n.conditions) (hepoch : m.epoch = n.epoch) (hdrain : m.drain = n.drain) :
    m = { n with notices := m.notices, noticeSeq := m.noticeSeq } := by
  cases m
  simp_all

/-- A step event leaves the requests, the conditions and the answers. -/
theorem State.mgmt_gatesStep (s : State) : s.gatesStep.mgmt = { s.mgmt with notices := s.gatesStep.mgmt.notices } := by
  obtain ⟨_, _, _, _, _, _, _, hrequests, hengine, hanswered, hcontrol, hconditions, hseq, hepoch, hdrain, _⟩ :=
    s.gatesStep_frame
  have h := Management.eq_of_kept hrequests hengine hanswered hcontrol hconditions hepoch hdrain
  rwa [hseq] at h

/-- Settles O13: the step is `State.useSync_step`, the gates and the commit follow by O34, and the copies by
`State.syncCopied_foldl`. -/
theorem servoSteps : Obligations.ServoSteps := by
  intro s p rx bytes err k e sum adjusted hp hrx hk hslot hcheck ht hat hindex hk' he hrow hstep hsum arrived cycles v
    reached
  subst hk' he hsum
  have hact : servoAct s.timer.sync s.timer.good (errorBand s.base err (!decide (adjusted =
      ((expectedPoint s.base (parseSync bytes)).1, (expectedPoint s.base (parseSync bytes)).2.1)))) = .step :=
    servoAct_step (hstep.imp_right (Or.imp_right fun h => congrArg not (decide_eq_false h)))
  have huse : arrived.useSync rx (parseSync bytes) = v.gatesStep.commitStep :=
    arrived.useSync_step (parseSync bytes) (err := err) (adjusted := adjusted)
      (show servoError s.base rx.stamp (expectedPoint s.base (parseSync bytes)).2.2 = _ from servoError_of_row hrow) hact
  have hv : v.timer.sync = .acquiring := by simp [v]
  have hvgen : v.gen = s.gen := by simp [v, arrived]
  have hgen : v.gatesStep.gen = s.gen := by rw [← hvgen]; simp
  have hren : v.Renewed v.gatesStep (decide (s.base.unlocked = .runLocal)) (v.Spans v.timer.position) := by
    have hcheck : decide (s.base.unlocked = .runLocal) =
        decide (v.base.unlocked = .runLocal ∨ v.timer.sync = .locked ∨ v.timer.sync = .holdover) := by
      have hbase : v.base = s.base := by rw [State.base, State.base, hvgen]
      simp only [hv, hbase, reduceCtorEq, or_false]
    rw [hcheck, State.gatesStep_eq]
    exact v.renewed_renewal _ _ fun w => (v.covers_iff _ w).symm
  have htimer : v.gatesStep.timer = v.timer := by simp
  have hahead : ∀ r, roundAhead r v.gatesStep.timer.round = true ↔ ¬ reached r := by
    intro r
    rw [htimer, roundAhead, roundDistance_eq]
    simp only [Bool.and_eq_true, decide_eq_true_eq, reached]
    omega
  have hexec := exec_receptionEnd_usable hp hrx hk hslot hcheck ht hat hindex
  have hcopied := v.gatesStep.commitStep.syncCopied_foldl p ⟨parseSync bytes, rx.start⟩
  have hrenewed : v.SameStreams v.gatesStep := by
    rw [State.gatesStep_eq]
    exact v.sameStreams_renewal _ _
  have hstreams : s.SameStreams v.gatesStep.commitStep :=
    (State.sameStreams_of_streams (v.gatesStep.commitStep_frame.2.2.2.2.2.1)).trans
      (hrenewed.trans (State.sameStreams_of_streams (by simp [v, arrived])))
  rw [huse] at hexec
  generalize (otherPorts p).foldl (State.fillHolder ⟨parseSync bytes, rx.start⟩) v.gatesStep.commitStep = u at *
  have hu := hcopied.1
  refine ⟨v.gatesStep, v.gatesStep.commitStep, u, _, hexec, rfl, hren, fun h => ?_, fun c r hc hr hreach => ?_, hcopied,
    ?_, ?_, fun hnone => ?_, fun i => ?_, ?_⟩
  · cases hc : s.gen.commit with
    | none => simp only [State.commitStep, hgen, hc]
    | some c =>
      cases hr : c.target with
      | nextRound => simp only [State.commitStep, hgen, hc, hr]
      | atRound r =>
        rw [State.commitStep_of_atRound (by rw [hgen]; exact hc) hr, if_pos ((hahead r).mpr (h c r hc hr))]
  · rw [State.commitStep_of_atRound (by rw [hgen]; exact hc) hr, if_neg (by rw [hahead]; exact not_not_intro hreach)]
    rfl
  · rw [show u.settle.gen = v.gatesStep.commitStep.gen by simp only [State.settle_frame]; rw [hu]]
    exact Eq.mpr (Generation.mk.injEq ..) ⟨by simp [hvgen], by simp [hvgen], by simp [hvgen], rfl⟩
  · simp only [State.settle_frame]
    rw [hu]
    simp [v, arrived]
  · have hw : v.gatesStep.commitStep = v.gatesStep := by simp only [State.commitStep, hgen, hnone]
    simp only [State.settle_frame]
    rw [hu, hw]
    refine ⟨by simp [v, arrived, hnone], by simp [v, arrived], ?_⟩
    dsimp only
    rw [v.mgmt_gatesStep, arrived.mgmt_retimed]
    rfl
  · have hi := State.stream_of_rest hstreams i
    have : u.settle.streams = v.gatesStep.commitStep.streams := by simp only [State.settle_frame]; rw [hu]
    simpa only [State.stream, this] using hi
  · simp only [State.settle_frame]
    rw [hu]
    simp

end

end Sys2Proof.Machine
end

section
/-! The port units' events: link checks (O22, O23), port loss (O24), the end of a transmission (O25) and the start
opportunities (O26). -/

namespace Sys2Proof.Machine

open Sys2Proof

/-! ### Link checks (R9, R14) -/

section

variable {s : State} {p : Port} {good : Bool}

theorem State.linkCheckDue_iff : s.linkCheckDue p = true ↔ (s.port p).lastCheck + 12500 ≤ s.refCount := decide_eq_true_iff

theorem exec_linkCheck_due (hp : s.power = .running) (h : (s.port p).lastCheck + 12500 ≤ s.refCount) :
    exec (.linkCheck p good) s = .next (s.linkCheck p good).settle := by
  simp only [exec, execLinkCheck, if_pos (And.intro hp (State.linkCheckDue_iff.mpr h))]

theorem exec_linkCheck_notDue (h : s.refCount < (s.port p).lastCheck + 12500) : exec (.linkCheck p good) s = .next s := by
  have hno : ¬ (s.power = .running ∧ s.linkCheckDue p = true) := fun hd =>
    Nat.not_le_of_lt h (State.linkCheckDue_iff.mp hd.2)
  simp only [exec, execLinkCheck, if_neg hno]

/-- What every link check writes (R9). -/
abbrev PortUnit.checked (good : Bool) (u : PortUnit) : PortUnit :=
  { u with lastCheck := u.lastCheck + 12500, signalGood := good }

theorem State.linkCheck_idle (h : (s.port p).state = .disabled ∨ (s.port p).state = .disabling) :
    s.linkCheck p good = s.modPort p (PortUnit.checked good) := by
  rcases h with h | h <;> simp only [State.linkCheck, h] <;> rfl

theorem State.linkCheck_rising (h : (s.port p).state = .qualifying ∨ (s.port p).state = .down) :
    s.linkCheck p good = (s.modPort p (PortUnit.checked good)).checkForUp p good := by
  rcases h with h | h <;> simp only [State.linkCheck, h] <;> rfl

theorem State.linkCheck_up (h : (s.port p).state = .up) :
    s.linkCheck p good = (s.modPort p (PortUnit.checked good)).checkForLoss p good := by
  simp only [State.linkCheck, h]
  rfl

/-- The good-check count after a check of a port that is QUALIFYING or DOWN. -/
def PortUnit.countedGood (good : Bool) (u : PortUnit) : Nat := if good = true then u.good + 1 else 0

theorem State.checkForUp_below (h : (s.port p).countedGood good < 3) :
    s.checkForUp p good = (s.modPort p fun u => { u with good := u.countedGood good }).countQualification p := by
  have hn : ¬ 3 ≤ (s.port p).countedGood good := Nat.not_le_of_lt h
  simp only [State.checkForUp]
  rw [if_neg (by exact hn)]
  exact congrArg (State.countQualification · p) (State.modPort_congr rfl)

theorem State.checkForUp_third (h : 3 ≤ (s.port p).countedGood good) : s.checkForUp p good = s.bringUp p := by
  simp only [State.checkForUp]
  exact if_pos h

theorem State.checkForLoss_good : s.checkForLoss p true = s.modPort p fun u => { u with bad := 0 } := rfl

theorem State.checkForLoss_bad (h : (s.port p).bad ≤ 1) :
    s.checkForLoss p false = s.modPort p fun u => { u with bad := u.bad + 1 } := by
  have hn : ¬ Config.checksInARow ≤ (s.port p).bad + 1 := Nat.not_le_of_lt (Nat.add_lt_add_right (Nat.lt_succ_of_le h) 1)
  simp only [State.checkForLoss, Bool.false_eq_true, if_false, if_neg hn]
  exact State.modPort_congr rfl

theorem State.checkForLoss_third (h : 2 ≤ (s.port p).bad) : s.checkForLoss p false = s.losePort p :=
  if_pos (Nat.add_le_add_right h 1)

/-- The 64th check of a waiting ENABLE, and one before it (R14). -/
theorem State.countQualification_of_some {n : Nat} (h : (s.port p).qualCount = some n) : s.countQualification p =
    if 64 ≤ n + 1 then ((s.modPort p fun u => { u with qualCount := none }).changePort p .down).completePortControl p
      .linkAbsent (some (.port p)) else s.modPort p fun u => { u with qualCount := some (n + 1) } := by
  simp only [State.countQualification, h]
  rfl

theorem State.countQualification_of_none (h : (s.port p).qualCount = none) : s.countQualification p = s := by
  simp only [State.countQualification, h]

theorem State.bringUp_of_some {n : Nat} (h : (s.port p).qualCount = some n) : s.bringUp p =
    ((((s.modPort p fun u => { u with good := 0, bad := 0, qualCount := none, state := .up }).noticeEvent
      .portState).raise p).completePortControl p .done none) := by
  simp only [State.bringUp, h, State.changePort, State.modPort_modPort]
  rfl

theorem State.bringUp_of_none (h : (s.port p).qualCount = none) : s.bringUp p =
    ((s.modPort p fun u => { u with good := 0, bad := 0, state := .up }).noticeEvent .portState).raise p := by
  simp only [State.bringUp, h, State.changePort, State.modPort_modPort]
  exact congrArg (fun t : State => (t.noticeEvent .portState).raise p) (State.modPort_congr (by rw [← h]))

theorem State.completePortControl_of_some {o : PortControl} (h : s.mgmt.portControl.get p = some o) (status : Status)
    (failure : Option Detail) : s.completePortControl p status failure =
      (s.setPortControl p none).completeOp o.requester o.tag o.ingress 0x0C o.slot status failure := by
  simp only [State.completePortControl, h]
  rfl

theorem State.completePortControl_of_none (h : s.mgmt.portControl.get p = none) (status : Status)
    (failure : Option Detail) : s.completePortControl p status failure = s := by
  simp only [State.completePortControl, h]

end

/-- Settles O22, by the port's state and what the check counts. -/
theorem linkCheckCountsAndBringsUp : Obligations.LinkCheckCountsAndBringsUp := by
  intro s p good hp
  refine ⟨?_, exec_linkCheck_notDue⟩
  intro hdue checked rising
  rw [exec_linkCheck_due hp hdue]
  refine ⟨fun h => ?_, fun hup hg => ?_, fun hup hg hbad => ?_, fun hr hg hq => ?_, fun hr hg hlow hq => ?_,
    fun hr hg hlow hq => ?_⟩
  · rw [State.linkCheck_idle h]
  · subst hg
    rw [State.linkCheck_up hup, State.checkForLoss_good, State.modPort_modPort]
  · subst hg
    rw [State.linkCheck_up hup, State.checkForLoss_bad (by simpa using hbad), State.modPort_modPort]
  · subst hg
    rw [State.linkCheck_rising hr, State.checkForUp_below (by simp [PortUnit.countedGood]),
      State.countQualification_of_none (by simpa using hq), State.modPort_modPort]
    rfl
  · subst hg
    rw [State.linkCheck_rising hr, State.checkForUp_below (by simp [PortUnit.countedGood]; omega),
      State.countQualification_of_none (by simpa using hq), State.modPort_modPort]
    rfl
  · subst hg
    rw [State.linkCheck_rising hr, State.checkForUp_third (by simp [PortUnit.countedGood]; omega),
      State.bringUp_of_none (by simpa using hq), State.modPort_modPort]

/-- Settles O23, by what the check counts. -/
theorem waitingEnableEndsAtUpOrTheSixtyFourthCheck : Obligations.WaitingEnableEndsAtUpOrTheSixtyFourthCheck := by
  intro s p good n o hp hdue hstate hqual ho checked counted
  have hcounted : ((s.modPort p (PortUnit.checked good)).port p).countedGood good = counted := by
    rw [State.port_modPort_same]
    rfl
  rw [exec_linkCheck_due hp hdue, State.linkCheck_rising (.inl hstate)]
  refine ⟨fun h3 => ?_, fun hlow hn => ?_, fun hlow hn => ?_⟩
  · rw [State.checkForUp_third (by rwa [hcounted]), State.bringUp_of_some (n := n) (by simpa using hqual),
      State.completePortControl_of_some (by simpa using ho), State.modPort_modPort]
  · rw [State.checkForUp_below (by rwa [hcounted]), State.countQualification_of_some (n := n) (by simpa using hqual),
      if_neg (by omega), State.modPort_modPort, State.modPort_modPort]
    exact congrArg (fun t : State => Host.Outcome.next t.settle) (State.modPort_congr rfl)
  · rw [State.checkForUp_below (by rwa [hcounted]), State.countQualification_of_some (n := n) (by simpa using hqual),
      if_pos (by omega), State.changePort, State.modPort_modPort, State.modPort_modPort, State.modPort_modPort,
      State.completePortControl_of_some (by simpa using ho)]
    exact congrArg (fun t : State => Host.Outcome.next (State.settle (State.completeOp (State.setPortControl (t.noticeEvent
      .portState) p none) o.requester o.tag o.ingress 0x0C o.slot .linkAbsent (some (.port p))))) (State.modPort_congr rfl)

/-! ### Disposals beside a change of the port unit (R12, R72) -/

section

variable {s : State} {p : Port} {f : PortUnit → PortUnit}

theorem State.releaseSlot_modPort (n : Nat) : (s.modPort p f).releaseSlot n = (s.releaseSlot n).modPort p f := by
  have hcount : (s.modPort p f).slotCount n = s.slotCount n := rfl
  unfold State.releaseSlot
  rw [hcount]
  split <;> rfl

theorem State.releaseSlot?_modPort (o : Option Nat) : (s.modPort p f).releaseSlot? o = (s.releaseSlot? o).modPort p f := by
  cases o <;> [rfl; exact State.releaseSlot_modPort _]

theorem State.releaseSlot?_setQueues (o : Option Nat) (q : Trio (Quad (List Desc))) :
    (s.setQueues q).releaseSlot? o = (s.releaseSlot? o).setQueues q := by
  cases o with
  | none => rfl
  | some n =>
    have hcount : (s.setQueues q).slotCount n = s.slotCount n := rfl
    simp only [State.releaseSlot?, State.releaseSlot, hcount]
    split <;> rfl

/-- A change of the port unit that lets management frames lost be counted before it or after it. -/
def PortUnit.Quiet (f : PortUnit → PortUnit) : Prop :=
  ∀ u, f { u with counters := u.counters.incMgmtLost } = { f u with counters := (f u).counters.incMgmtLost }

theorem State.dispose_modPort (hf : PortUnit.Quiet f) (r : Reason) (d : Desc) :
    State.dispose r p (s.modPort p f) d = (State.dispose r p s d).modPort p f := by
  unfold State.dispose
  rcases d.origin with i | _ | _
  · rcases d.late
    · exact State.releaseSlot_modPort (s := s.countStream i StreamCounters.incDropped) _
    · exact State.releaseSlot_modPort (s := s.countStream i StreamCounters.incDropped) _
    · have hroom : (s.modPort p f).retentionRoom = s.retentionRoom := rfl
      simp only [hroom]
      split
      · rw [State.retain_eq, State.retain_eq]
        simp only [State.modPort]
        congr 1
        exact if_congr Iff.rfl (State.noticeEvent_mgmt _ _ _ rfl rfl) rfl
      · exact State.releaseSlot_modPort (s := s.overflow.countStream i StreamCounters.incDropped) _
  · exact State.releaseSlot_modPort _
  · have hcount : (s.modPort p f).countPort p PortCounters.incMgmtLost =
        (s.countPort p PortCounters.incMgmtLost).modPort p f := by
      rw [State.countPort, State.countPort, State.modPort_modPort, State.modPort_modPort]
      exact State.modPort_congr (hf _).symm
    simp only [hcount]
    exact State.releaseSlot_modPort _

/-- The copies of a list, each disposed of with its reason. -/
def State.disposeEach (s : State) (p : Port) (copies : List (Desc × Reason)) : State :=
  copies.foldl (fun s x => State.dispose x.2 p s x.1) s

theorem State.disposeEach_modPort (hf : PortUnit.Quiet f) (l : List (Desc × Reason)) (s : State) :
    (s.modPort p f).disposeEach p l = (s.disposeEach p l).modPort p f := by
  induction l generalizing s with
  | nil => rfl
  | cons x l ih => simp only [State.disposeEach, List.foldl_cons, State.dispose_modPort hf] at ih ⊢; exact ih _

theorem State.disposeEach_setQueues (l : List (Desc × Reason)) (s : State) (q : Trio (Quad (List Desc))) :
    (s.setQueues q).disposeEach p l = (s.disposeEach p l).setQueues q := by
  induction l generalizing s with
  | nil => rfl
  | cons x l ih => simp only [State.disposeEach, List.foldl_cons, State.dispose_setQueues] at ih ⊢; exact ih _

theorem State.disposeEach_append (l m : List (Desc × Reason)) (s : State) :
    s.disposeEach p (l ++ m) = (s.disposeEach p l).disposeEach p m := List.foldl_append ..

end

/-- The copies that wait on a port, class by class. -/
abbrev State.waiting (s : State) (p : Port) : List Desc := s.egress p 0 ++ s.egress p 1 ++ s.egress p 2 ++ s.egress p 3

/-- The copies that wait on a port, to be disposed of as the port is lost or shut. -/
abbrev State.stranded (s : State) (p : Port) : List (Desc × Reason) := (s.waiting p).map fun d => (d, Reason.portDown)

/-- The queues with those of a port empty. -/
abbrev State.emptied (s : State) (p : Port) : State := s.setQueues (s.queues.set p ⟨[], [], [], []⟩)

theorem State.disposeQueues_eq_disposeEach (s : State) (p : Port) :
    s.disposeQueues p = (s.emptied p).disposeEach p (s.stranded p) := s.disposeQueues_eq p

/-- A disposal leaves every management copy to be dropped. -/
theorem countP_management_droppedOf (room : Nat) (l : List Desc) :
    (droppedOf room l).countP (fun d => decide (d.origin = .management)) =
      l.countP fun d => decide (d.origin = .management) := by
  induction l generalizing room with
  | nil => rfl
  | cons d l ih =>
    rw [droppedOf]
    split_ifs with h
    · have hno : ¬ d.origin = .management := by
        intro e
        simp [Desc.stream?, e] at h
      simp [ih, hno]
    · simp [ih, List.countP_cons]

/-- The records that retention is offered (R110, R111). -/
def offeredOf (p : Port) (copies : List (Desc × Reason)) : List Record :=
  copies.filterMap fun x =>
    match x.1.origin with
    | .stream i => if x.1.late = .retain then some (x.1.toRecord i x.2 p) else none
    | .unmatched => none
    | .management => none

/-- What a disposal leaves as it was, and what it makes of the retention queue and the port. -/
theorem State.Disposed.facts {s v : State} {p : Port} {l : List (Desc × Reason)} (h : s.Disposed v p l) :
    v.timer = s.timer ∧ v.gen = s.gen ∧ v.gates = s.gates ∧ v.opportunities = s.opportunities ∧
    v.store.mem = s.store.mem ∧ v.refCount = s.refCount ∧ v.straps = s.straps ∧ v.queues = s.queues ∧
    v.mgmt = { s.mgmt with notices := v.mgmt.notices } ∧ (∀ q, q ≠ p → v.port q = s.port q) ∧
    v.port p = { s.port p with counters := { (s.port p).counters with
      mgmtLost := (s.port p).counters.mgmtLost +
        BitVec.ofNat 32 (l.countP fun x => decide (x.1.origin = .management)) } } ∧
    v.retention = ⟨s.retention.records ++ (offeredOf p l).take (32 - s.retention.records.length),
      s.retention.overflow + BitVec.ofNat 32 ((offeredOf p l).length - (32 - s.retention.records.length))⟩ ∧
    s.SameStreams v := by
  obtain ⟨hrel, hv⟩ := h
  refine ⟨by rw [hv], by rw [hv], by rw [hv], by rw [hv], hrel.1, by rw [hv], by rw [hv], by rw [hv], ?_, fun q hq => ?_,
    ?_, by rw [hv]; rfl, ?_⟩
  · rw [hv]
    dsimp only
    split
    · exact s.mgmt_noticeEvent _
    · rfl
  · rw [hv]
    exact Trio.get_set_other _ _ hq
  · rw [hv]
    simp only [State.port, Trio.get_set_same, countP_management_droppedOf, List.countP_map]
    rfl
  · rw [hv]
    simp only [State.SameStreams, State.streamRests]
    refine List.ext_getElem (by simp) fun j _ _ => ?_
    simp [StreamState.rest]

/-! ### Port loss (R10 to R12) -/

section

variable {s : State} {p : Port}

/-- The slot of the reception in progress leaves it (R7). -/
theorem State.abandonReception_eq_releaseSlot? : s.abandonReception p =
    (s.modPort p fun u => { u with rx := none }).releaseSlot? ((s.port p).rx.bind Reception.slot) := by
  unfold State.abandonReception
  split
  next h => rw [h, State.modPort_self (PortUnit.rx_none_eq h)]; rfl
  next h => rw [h]; rfl

/-- The copy in flight on a port, to be disposed of as the transmission is cut. -/
def State.flying (s : State) (p : Port) : List (Desc × Reason) :=
  match (s.port p).tx with
  | some ⟨.desc d, _, _, _⟩ => [(d, Reason.aborted)]
  | _ => []

/-- The port unit without its transmission, which is counted as aborted (R11). -/
def PortUnit.cut (u : PortUnit) : PortUnit :=
  { u with tx := none, counters := { u.counters with aborted := u.counters.aborted + (if u.tx.isSome then 1 else 0) } }

theorem State.cutTransmission_eq_disposeEach :
    s.cutTransmission p = (s.modPort p PortUnit.cut).disposeEach p (s.flying p) := by
  unfold State.cutTransmission State.flying
  cases h : (s.port p).tx with
  | none =>
    have hcut : (s.port p).cut = s.port p := by simp [PortUnit.cut, h, PortUnit.tx_none_eq h]
    exact (State.modPort_self hcut).symm
  | some t =>
    have hcut : (s.modPort p fun u => { u with tx := none }).countPort p PortCounters.incAborted =
        s.modPort p PortUnit.cut := by
      rw [State.countPort, State.modPort_modPort]
      exact State.modPort_congr (by simp [PortUnit.cut, h, PortCounters.incAborted])
    obtain ⟨f | d, _, _, _⟩ := t <;> simp only [hcut] <;> rfl

/-- The port unit of a port that is lost (R10). -/
def PortUnit.lost (u : PortUnit) : PortUnit :=
  { u.cut with state := .down, good := 0, bad := 0, rx := none, holder := none }

theorem State.losePort_eq : s.losePort p =
    ((((s.emptied p).modPort p PortUnit.lost).releaseSlot? ((s.port p).rx.bind Reception.slot)).disposeEach p
      (s.flying p ++ s.stranded p)).noticeEvent .portState := by
  have hfly : (s.abandonReception p).flying p = s.flying p := by simp [State.flying]
  have hqueues : ((s.abandonReception p).cutTransmission p).queues = s.queues := by simp
  have hstranded : ((s.abandonReception p).cutTransmission p).stranded p = s.stranded p := by
    simp only [State.stranded, State.waiting, State.egress, hqueues]
  have hemptied : ((s.abandonReception p).cutTransmission p).emptied p =
      ((((s.emptied p).modPort p fun u => { u with rx := none }).releaseSlot? ((s.port p).rx.bind Reception.slot)).modPort p
        PortUnit.cut).disposeEach p (s.flying p) := by
    have hmove := State.releaseSlot?_setQueues (s := s.modPort p fun u => { u with rx := none })
      ((s.port p).rx.bind Reception.slot) (s.queues.set p ⟨[], [], [], []⟩)
    rw [State.emptied, hqueues, State.cutTransmission_eq_disposeEach, hfly, ← State.disposeEach_setQueues,
      State.abandonReception_eq_releaseSlot?]
    exact congrArg (fun t : State => (t.modPort p PortUnit.cut).disposeEach p (s.flying p)) hmove.symm
  rw [State.losePort, State.disposeQueues_eq_disposeEach, hstranded, hemptied, ← State.disposeEach_append, State.emptyHolder,
    State.changePort, State.modPort_modPort, State.modPort_modPort, ← State.disposeEach_modPort (fun _ => rfl), State.modPort_modPort,
    ← State.releaseSlot?_modPort, State.modPort_modPort]
  rfl

end

/-- Settles O24: `State.losePort_eq` says what the loss disposes of, and `State.Disposed.facts` what that leaves. -/
theorem portLossDisposesInOrder : Obligations.PortLossDisposesInOrder := by
  intro s p hp hdue hup hbad flying copies ended lost kept
  let v := ended.disposeEach p copies
  have hended : ended = ((((s.modPort p (PortUnit.checked false)).emptied p).modPort p PortUnit.lost).releaseSlot?
      ((s.port p).rx.bind Reception.slot)) := by
    simp only [ended]
    congr 1
    simp only [State.emptied, State.setQueues, State.modPort, Trio.get_set_same, Trio.set_set]
    rfl
  have hdisposed : ended.Disposed v p copies := State.dispose_disposed p copies ended
  have hcopies : (s.modPort p (PortUnit.checked false)).flying p ++ (s.modPort p (PortUnit.checked false)).stranded p =
      copies := by
    have hfly : (s.modPort p (PortUnit.checked false)).flying p = flying := by
      simp only [State.flying, State.port_modPort_same]
      rfl
    rw [hfly]
    rfl
  have hloss : (s.modPort p (PortUnit.checked false)).losePort p = v.noticeEvent .portState := by
    rw [State.losePort_eq, hcopies]
    simp only [v, hended, State.port_modPort_same]
  have hpunit : ended.port p = ((s.port p).checked false).lost := by
    simp only [ended, State.releaseSlot?_views]
    exact Trio.get_set_same _ _ _
  obtain ⟨htimer, hgen, hgates, hopp, hmem, href, hstraps, hqueues, hmgmt, hother, hport, hret, hstreams⟩ := hdisposed.facts
  have hoffered : offeredOf p copies = kept := by
    refine List.filterMap_congr fun x _ => ?_
    rcases x.1.origin <;> rfl
  have hended_ret : ended.retention = s.retention := by simp [ended]
  refine ⟨v, v.noticeEvent .portState, ?_, hdisposed, rfl, ?_, fun c => ?_, ?_, ?_, fun q hq => ?_, fun j => ?_, ?_⟩
  · rw [exec_linkCheck_due hp hdue, State.linkCheck_up hup, State.checkForLoss_third (by simpa using hbad), hloss]
  · simp
    rw [hport, hpunit]
    rfl
  · simp [State.egress, hqueues, ended]
    exact Quad.get_all [] c
  · simp [hret, hoffered, hended_ret]
  · simp [hret, hoffered, hended_ret]
  · have hother' : ended.port q = s.port q := by
      simp only [ended, State.releaseSlot?_views]
      exact Trio.get_set_other _ _ hq
    refine ⟨by simp [hother q hq, hother'], fun c => ?_⟩
    simp [State.egress, hqueues, ended, Trio.get_set_other _ _ hq]
  · have hj := State.stream_of_rest hstreams j
    simpa [State.stream, ended] using hj
  · have hmgmt' : (v.noticeEvent .portState).mgmt = { s.mgmt with notices := (v.noticeEvent .portState).mgmt.notices } := by
      rw [State.mgmt_noticeEvent, hmgmt]
      simp [ended]
    simpa [htimer, hgen, hgates, hopp, hmem, href, hstraps, ended] using hmgmt'

/-! ### The end of a transmission (R102, R13) -/

section

variable {s : State} {p : Port}

theorem exec_transmissionEnd_due {t : Transmission} (hp : s.power = .running) (ht : (s.port p).tx = some t)
    (h : t.start + t.occupation ≤ s.refCount) :
    exec (.transmissionEnd p) s = .next ((s.releaseTransmission p t).afterTransmission p).settle := by
  simp only [exec, execTransmissionEnd, if_pos (And.intro hp ((s.transmissionDue_iff p).mpr ⟨t, ht, h⟩)),
    State.endTransmission, ht]

/-- The port unit after a whole transmission (R102). -/
def PortUnit.sent (u : PortUnit) : PortUnit := { u with tx := none, counters := u.counters.incSent }

/-- The copy that a transmission sends, if it is not a SYNC. -/
def Transmission.desc? (t : Transmission) : Option Desc :=
  match t.sending with
  | .desc d => some d
  | .sync _ => none

/-- The stream that a transmission counts for, counted (R53, R102). -/
def State.countForwarded (s : State) (d : Option Desc) : State :=
  match d.bind Desc.stream? with
  | some i => s.countStream i StreamCounters.incForwarded
  | none => s

theorem State.releaseTransmission_eq (t : Transmission) : s.releaseTransmission p t =
    ((s.modPort p PortUnit.sent).countForwarded t.desc?).releaseSlot? (t.desc?.map Desc.slot) := by
  have hsent : (s.countPort p PortCounters.incSent).modPort p (fun u => { u with tx := none }) = s.modPort p PortUnit.sent :=
    State.modPort_modPort ..
  unfold State.releaseTransmission
  rw [hsent]
  rcases t with ⟨d | f, _, _, _⟩
  · rcases ho : d.origin with i | _ | _ <;>
      simp only [Transmission.desc?, State.countForwarded, Desc.stream?, Option.bind_some, ho, Option.map_some] <;> rfl
  · rfl

/-- The port unit of a port that is shut (R13). -/
def PortUnit.shut (u : PortUnit) : PortUnit := { u with state := .disabled, good := 0, bad := 0, holder := none }

theorem State.shutPort_eq : s.shutPort p =
    (((s.emptied p).modPort p PortUnit.shut).disposeEach p (s.stranded p)).noticeEvent .portState := by
  rw [State.shutPort, State.disposeQueues_eq_disposeEach, State.emptyHolder, State.changePort, State.modPort_modPort,
    State.modPort_modPort, State.disposeEach_modPort (fun _ => rfl)]
  rfl

/-! ### A reply beside a port that is not UP -/

theorem State.up_of_mgmtAnswer {c : Cls} (h : s.mgmtAnswer p c = .accepted) : (s.port p).state = .up := by
  unfold State.mgmtAnswer at h
  split_ifs at h with hup
  simpa [State.isUp] using hup

theorem State.egress_sendReply_of_down {q : Port} (hq : (s.port q).state ≠ .up) (slot : Nat) (r : Reply) (c : Cls) :
    (s.sendReply p slot r).egress q c = s.egress q c := by
  unfold State.sendReply State.appendReply
  split
  next h =>
    have hup : (s.port p).state = .up := by simpa [State.buildReply] using State.up_of_mgmtAnswer h
    rw [State.egress_append, if_neg (by rintro ⟨rfl, -⟩; exact hq hup)]
    simp [State.buildReply]
  all_goals simp [State.buildReply]

theorem State.sent_sendReply (q : Port) (slot : Nat) (r : Reply) :
    ((s.sendReply p slot r).port q).counters.sent = (s.port q).counters.sent := by
  have hlost : ∀ t : State, ((t.countPort p PortCounters.incMgmtLost).port q).counters.sent = (t.port q).counters.sent :=
    fun t => State.port_modPort_keeps (fun u => u.counters.sent) t p q _ fun _ => rfl
  unfold State.sendReply State.appendReply
  split
  next h => simp [State.buildReply]
  all_goals simp [State.buildReply, hlost]

theorem State.egress_completeOp_of_down {q : Port} (hq : (s.port q).state ≠ .up) (requester : Byte) (tag : W16) (kind : Byte)
    (slot : Option Nat) (status : Status) (failure : Option Detail) (c : Cls) :
    (s.completeOp requester tag p kind slot status failure).egress q c = s.egress q c := by
  unfold State.completeOp
  split
  · exact State.egress_sendReply_of_down (by simpa using hq) ..
  · split <;> simp

theorem State.sent_completeOp (q : Port) (requester : Byte) (tag : W16) (kind : Byte)
    (slot : Option Nat) (status : Status) (failure : Option Detail) :
    ((s.completeOp requester tag p kind slot status failure).port q).counters.sent = (s.port q).counters.sent := by
  unfold State.completeOp
  split
  · exact State.sent_sendReply ..
  · split <;> simp

theorem State.egress_completePortControl_of_down {q : Port} (hq : (s.port q).state ≠ .up) (status : Status)
    (failure : Option Detail) (c : Cls) : (s.completePortControl p status failure).egress q c = s.egress q c := by
  unfold State.completePortControl
  split
  · rfl
  · exact State.egress_completeOp_of_down (by simpa using hq) ..

theorem State.sent_completePortControl (q : Port) (status : Status) (failure : Option Detail) :
    ((s.completePortControl p status failure).port q).counters.sent = (s.port q).counters.sent := by
  unfold State.completePortControl
  split
  · rfl
  · exact State.sent_completeOp ..

theorem State.portControl_completePortControl (status : Status) (failure : Option Detail) :
    (s.completePortControl p status failure).mgmt.portControl.get p = none := by
  unfold State.completePortControl
  split
  next h => exact h
  next => simp

end

/-- Settles O25, by the port's state and what was sent. -/
theorem transmissionEndCountsAndReleases : Obligations.TransmissionEndCountsAndReleases := by
  intro s p t hp ht sent
  refine ⟨fun hlate => ?_, fun hdue hup => ?_, ?_⟩
  · have hno : ¬ (s.power = .running ∧ s.transmissionDue p = true) := by
      rintro ⟨-, hd⟩
      obtain ⟨x, hx, hxdue⟩ := (s.transmissionDue_iff p).mp hd
      rw [ht, Option.some_inj] at hx
      subst hx
      exact Nat.not_le_of_lt hlate hxdue
    simp only [exec, execTransmissionEnd, if_neg hno]
  · have hafter : (s.releaseTransmission p t).afterTransmission p = (s.releaseTransmission p t).raise p := by
      have hstate : ((s.releaseTransmission p t).port p).state = .up := by simpa using hup
      simp only [State.afterTransmission, hstate]
    rw [exec_transmissionEnd_due hp ht hdue, hafter, State.releaseTransmission_eq]
    refine ⟨fun f hf => ?_, fun d i hd ho => ?_, fun d hd ho => ?_⟩
    · simp only [Transmission.desc?, hf]
      rfl
    · simp only [Transmission.desc?, hd, State.countForwarded, Desc.stream?, ho, Option.bind_some, Option.map_some]
      rfl
    · rcases ho with ho | ho <;>
      · simp only [Transmission.desc?, hd, State.countForwarded, Desc.stream?, ho, Option.bind_some, Option.map_some]
        rfl
  · intro hdue hdis queued flying ended
    let v := ended.disposeEach p queued
    have hdisposed : ended.Disposed v p queued := State.dispose_disposed p queued ended
    have hafter : (s.releaseTransmission p t).afterTransmission p =
        ((s.releaseTransmission p t).shutPort p).completePortControl p .done none := by
      have hstate : ((s.releaseTransmission p t).port p).state = .disabling := by simpa using hdis
      simp only [State.afterTransmission, hstate]
    have hended : ((s.releaseTransmission p t).emptied p).modPort p PortUnit.shut = ended := by
      rw [State.emptied, State.releaseTransmission_eq, ← State.releaseSlot?_setQueues, ← State.releaseSlot?_modPort]
      simp only [ended]
      rw [show flying = t.desc? from rfl, State.countForwarded]
      cases t.desc?.bind Desc.stream? <;>
      · simp only [State.releaseSlot?_frame, State.setQueues, State.modPort, State.countStream, State.modStream,
          Trio.get_set_same, Trio.set_set]
        rfl
    have hqueues' : (s.releaseTransmission p t).queues = s.queues := by simp
    have hshut : (s.releaseTransmission p t).shutPort p = v.noticeEvent .portState := by
      rw [State.shutPort_eq, hended]
      simp only [State.stranded, State.waiting, State.egress, hqueues']
      rfl
    obtain ⟨-, -, -, -, -, -, -, hqueues, hmgmt, -, hport, -, -⟩ := hdisposed.facts
    have hunit : ended.port p = ((s.port p).sent).shut := by
      simp only [ended, State.releaseSlot?_views]
      exact Trio.get_set_same _ _ _
    rw [hunit] at hport
    have hcontrol : v.mgmt.portControl = s.mgmt.portControl := by
      rw [hmgmt]
      simp [ended]
    have hempty : ∀ c, v.egress p c = [] := fun c => by
      simp [State.egress, hqueues, ended]
      exact Quad.get_all [] c
    rw [exec_transmissionEnd_due hp ht hdue, hafter, hshut]
    have hdown : (v.port p).state ≠ .up := by rw [hport]; exact PortState.noConfusion
    refine ⟨v, _, rfl, hdisposed, fun hnone => ?_, fun o ho => ?_, ?_, ?_, ?_, ?_, ?_, ?_, ?_, fun c => ?_⟩
    · rw [State.completePortControl_of_none]
      simpa [hcontrol] using hnone
    · rw [State.completePortControl_of_some]
      simpa [hcontrol] using ho
    iterate 5 simp [hport, PortUnit.shut, PortUnit.sent]
    · rw [State.sent_completePortControl]
      simp [hport, PortUnit.shut, PortUnit.sent, PortCounters.incSent]
    · exact State.portControl_completePortControl ..
    · rw [State.egress_completePortControl_of_down (by simpa using hdown)]
      simpa using hempty c

/-! ### Start opportunities (R98 to R101) -/

section

variable {s u : State} {p : Port} {c : Cls}

/-- The head of queue `c` passes the gate and the guard bound of its class (R99). -/
def State.Passes (s : State) (p : Port) (c : Cls) : Prop :=
  ∃ d rest, s.egress p c = d :: rest ∧ (s.gates.get p).gate.get c = true ∧
    ∀ b, (s.gates.get p).bound.get c = some b → s.positionNow + (d.length + 12) * 10 ≤ b

theorem State.eligible_iff : s.eligible p c = true ↔ s.Passes p c := by
  refine ⟨State.eligible_cons, fun ⟨d, rest, hq, hgate, hbound⟩ => ?_⟩
  simp only [State.eligible, hq, hgate, Bool.true_and]
  cases hb : (s.gates.get p).bound.get c with
  | none => rfl
  | some b => exact decide_eq_true (hbound b hb)

/-- The first class, in class order, that a test passes. -/
theorem find?_allClasses {f : Cls → Bool} : f c = true → (∀ k, k < c → f k = false) → allClasses.find? f = some c := by
  intro hc hlt
  fin_cases c
  · simp_all [allClasses]
  · have h0 := hlt 0 (by decide)
    simp_all [allClasses]
  · have h0 := hlt 0 (by decide)
    have h1 := hlt 1 (by decide)
    simp_all [allClasses]
  · have h0 := hlt 0 (by decide)
    have h1 := hlt 1 (by decide)
    have h2 := hlt 2 (by decide)
    simp_all [allClasses]

/-- The classes whose queue the arbiter may choose: all behind an empty SYNC holder, or in a drain the queue in which its
reply waits (R99, R106). -/
def State.MayPick (s : State) (p : Port) (c : Cls) : Prop :=
  match s.mgmt.drain with
  | none => (s.port p).holder = none
  | some dr => dr.queue = some (p, c) ∧ ∃ d ∈ s.egress p c, d.origin = .management ∧ d.slot = dr.slot

theorem State.drainReplyWaits_of_queue {dr : Drain} {q : Port} (h : dr.queue = some (q, c)) :
    s.drainReplyWaits dr = true ↔ ∃ d ∈ s.egress q c, d.origin = .management ∧ d.slot = dr.slot := by
  simp only [State.drainReplyWaits, h, List.any_eq_true, Bool.and_eq_true, decide_eq_true_eq]

theorem State.choose_holder (hd : s.mgmt.drain = none) (h : (s.port p).holder ≠ none) : s.choose p = .holder := by
  simp only [State.choose, hd, State.chooseFree, if_pos (Option.isSome_iff_ne_none.mpr h)]

theorem State.choose_queue (hmay : s.MayPick p c) (hpass : s.Passes p c)
    (hfirst : s.mgmt.drain = none → ∀ k, k < c → ¬ s.Passes p k) : s.choose p = .queue c := by
  rw [← State.eligible_iff] at hpass
  unfold State.MayPick at hmay
  cases hd : s.mgmt.drain with
  | none =>
    simp only [hd] at hmay
    have hfind : allClasses.find? (fun c => s.eligible p c) = some c := find?_allClasses hpass fun k hk =>
      Bool.eq_false_iff.mpr fun h => hfirst hd k hk (State.eligible_iff.mp h)
    simp only [State.choose, hd, State.chooseFree, hmay, hfind]
    rfl
  | some dr =>
    simp only [hd] at hmay
    obtain ⟨hq, hwait⟩ := hmay
    simp only [State.choose, hd, State.chooseDrain, hq, (State.drainReplyWaits_of_queue hq).mpr hwait, hpass]
    rfl

theorem State.choose_nothing (hno : ∀ c, ¬ (s.MayPick p c ∧ s.Passes p c))
    (hholder : s.mgmt.drain = none → (s.port p).holder = none) : s.choose p = .nothing := by
  unfold State.MayPick at hno
  cases hd : s.mgmt.drain with
  | none =>
    simp only [hd] at hno
    have hfind : allClasses.find? (fun c => s.eligible p c) = none := List.find?_eq_none.mpr fun c _ h =>
      hno c ⟨hholder hd, State.eligible_iff.mp h⟩
    simp only [State.choose, hd, State.chooseFree, hholder hd, hfind]
    rfl
  | some dr =>
    simp only [hd] at hno
    simp only [State.choose, hd, State.chooseDrain]
    split
    · rfl
    next q c hq =>
      refine if_neg fun h => ?_
      simp only [Bool.and_eq_true, decide_eq_true_eq] at h
      obtain ⟨⟨rfl, hwait⟩, hel⟩ := h
      exact hno c ⟨⟨hq, (State.drainReplyWaits_of_queue hq).mp hwait⟩, State.eligible_iff.mp hel⟩

/-- What a taken opportunity makes of its port and queues (R98). -/
def State.KeptAt (s u : State) (p : Port) : Prop := u.port p = s.port p ∧ ∀ c, u.egress p c = s.egress p c

theorem State.takeOpportunity_refused (h : s.opportunities.get p = false ∨ (s.port p).state ≠ .up ∨ (s.port p).tx ≠ none) :
    s.KeptAt (s.takeOpportunity p) p := by
  unfold State.takeOpportunity State.arbitrate
  split
  next ho =>
    rw [if_neg]
    · exact ⟨rfl, fun _ => rfl⟩
    · simpa [State.isUp, ho, or_iff_not_imp_left] using h
  next => exact ⟨rfl, fun _ => rfl⟩

theorem State.takeOpportunity_open (ho : s.opportunities.get p = true) (hup : (s.port p).state = .up)
    (htx : (s.port p).tx = none) : s.takeOpportunity p =
      match s.choose p with
      | .nothing => s.lower p
      | .holder => (s.lower p).startSync p
      | .queue c => (s.lower p).startDesc p c := by
  have hlow : (s.lower p).port p = s.port p := rfl
  unfold State.takeOpportunity State.arbitrate
  rw [if_pos ho, if_pos (by simp [State.isUp, hlow, hup, htx])]
  rfl

/-- Nothing that the arbiter of a port reads differs (R99). -/
structure State.AlikeAt (s u : State) (p : Port) : Prop where
  refCount : u.refCount = s.refCount
  timer : u.timer = s.timer
  store : u.store = s.store
  gates : u.gates = s.gates
  mgmt : u.mgmt = s.mgmt
  opportunity : u.opportunities.get p = s.opportunities.get p
  port : u.port p = s.port p
  egress : ∀ c, u.egress p c = s.egress p c

theorem State.AlikeAt.takeOpportunity (h : s.AlikeAt u p) {q : Port} (hq : p ≠ q) : s.AlikeAt (u.takeOpportunity q) p := by
  obtain ⟨hport, hegress, hopp⟩ := u.takeOpportunity_other hq
  refine ⟨?_, ?_, ?_, ?_, ?_, hopp.trans h.opportunity, hport.trans h.port, fun c => (hegress c).trans (h.egress c)⟩ <;>
    simp [h.refCount, h.timer, h.store, h.gates, h.mgmt]

/-- At the end of a command a port's arbiter takes its own opportunity, and the others touch nothing it reads. -/
theorem State.settle_at (s : State) (p : Port) :
    ∃ u, s.AlikeAt u p ∧ (u.takeOpportunity p).KeptAt s.settle p := by
  have h0 : ∀ p, s.AlikeAt s p := fun p => ⟨rfl, rfl, rfl, rfl, rfl, rfl, rfl, fun _ => rfl⟩
  have hother : ∀ {p q : Port} (t : State), p ≠ q → t.KeptAt (t.takeOpportunity q) p := fun t hq =>
    ⟨(t.takeOpportunity_other hq).1, (t.takeOpportunity_other hq).2.1⟩
  have htrans : ∀ {p : Port} {t v w : State}, t.KeptAt v p → v.KeptAt w p → t.KeptAt w p := fun h h' =>
    ⟨h'.1.trans h.1, fun c => (h'.2 c).trans (h.2 c)⟩
  cases p with
  | A => exact ⟨s, h0 .A, htrans (hother _ (by decide)) (hother (q := .L) _ (by decide))⟩
  | B => exact ⟨s.takeOpportunity .A, (h0 .B).takeOpportunity (by decide), hother (q := .L) _ (by decide)⟩
  | L => exact ⟨(s.takeOpportunity .A).takeOpportunity .B,
      ((h0 .L).takeOpportunity (by decide)).takeOpportunity (by decide), rfl, fun _ => rfl⟩

theorem State.AlikeAt.positionNow (h : s.AlikeAt u p) : u.positionNow = s.positionNow := by
  simp only [State.positionNow, h.timer]

theorem State.AlikeAt.choose (h : s.AlikeAt u p) : u.choose p = s.choose p := by
  have hel : ∀ c, u.eligible p c = s.eligible p c := fun c => by
    simp only [State.eligible, h.egress, h.gates, h.positionNow]
  have hfree : u.chooseFree p = s.chooseFree p := by simp only [State.chooseFree, h.port, hel]
  have hdrain : ∀ d, u.chooseDrain p d = s.chooseDrain p d := fun d => by
    simp only [State.chooseDrain]
    split
    · rfl
    next q c hq =>
      by_cases hpq : p = q
      · subst hpq
        have hwait : u.drainReplyWaits d = s.drainReplyWaits d := by simp only [State.drainReplyWaits, hq, h.egress]
        rw [hwait, hel]
      · rw [decide_eq_false hpq]
        rfl
  simp only [State.choose, h.mgmt, hfree, hdrain]

end

theorem State.startSync_of_some {s : State} {p : Port} {h : HeldSync} (hh : (s.port p).holder = some h) : s.startSync p =
    s.modPort p fun u => { u with
      holder := none, tx := some ⟨.sync (h.frame.addResidence (s.refCount - h.arrival)), s.refCount, 440,
        syncBytes (h.frame.addResidence (s.refCount - h.arrival))⟩ } := by
  simp only [State.startSync, hh]
  rfl

theorem State.startDesc_cons {s : State} {p : Port} {c : Cls} {d : Desc} {rest : List Desc} (hq : s.egress p c = d :: rest) :
    s.startDesc p c = (s.setEgress p c rest).modPort p fun u => { u with
      tx := some ⟨.desc d, s.refCount, (d.length + 12) * 10, recheck (s.slotBytes d.slot d.length)⟩ } := by
  simp only [State.startDesc, hq]
  rfl

/-- What the taken opportunities may change. -/
theorem State.takeOpportunity_eq (s : State) (p : Port) : s.takeOpportunity p = { s with
    ports := (s.takeOpportunity p).ports, queues := (s.takeOpportunity p).queues
    opportunities := (s.takeOpportunity p).opportunities } := by
  unfold State.takeOpportunity State.arbitrate State.startSync State.startDesc
  repeat' split
  all_goals rfl

theorem State.settle_eq (s : State) : s.settle = { s with
    ports := s.settle.ports, queues := s.settle.queues, opportunities := s.settle.opportunities } := by
  refine foldl_keeps (P := fun t => t = { s with
    ports := t.ports, queues := t.queues, opportunities := t.opportunities }) (fun {t} p h => ?_) allPorts rfl
  rw [t.takeOpportunity_eq p]
  generalize t.takeOpportunity p = u
  rw [h]

/-- Settles O26: at its turn a port's arbiter finds what it reads as the command left it. -/
theorem opportunitiesStartWhatTheArbiterChooses : Obligations.OpportunitiesStartWhatTheArbiterChooses := by
  intro s p passes mayPick kept
  obtain ⟨u, hu, hport, hegress⟩ := s.settle_at p
  have hkept : u.KeptAt (u.takeOpportunity p) p → kept := fun h =>
    ⟨(hport.trans h.1).trans hu.port, fun c => ((hegress c).trans (h.2 c)).trans (hu.egress c)⟩
  refine ⟨s.opportunities_settle ▸ s.settle_eq, fun h => ?_, fun ho hup htx => ⟨fun h hd hh => ?_,
    fun c d rest hmay hpass hfirst hq => ?_, fun hno hholder => ?_⟩⟩
  · exact hkept (State.takeOpportunity_refused (by rwa [hu.opportunity, hu.port]))
  all_goals
    rw [← hu.opportunity] at ho
    rw [← hu.port] at hup htx
    have hopen := State.takeOpportunity_open ho hup htx
  · have hsync : u.choose p = .holder := hu.choose.trans (State.choose_holder hd (by simp [hh]))
    have hheld : ((u.lower p).port p).holder = some h := (congrArg PortUnit.holder hu.port).trans hh
    simp only [hsync, State.startSync_of_some hheld] at hopen
    rw [hport, hopen]
    refine ⟨?_, fun c => ?_⟩
    · rw [State.port_modPort_same, ← hu.port, ← hu.refCount]
      rfl
    · rw [hegress, hopen, ← hu.egress]
      rfl
  · have hqueue : u.choose p = .queue c := hu.choose.trans (State.choose_queue hmay hpass hfirst)
    have hhead : (u.lower p).egress p c = d :: rest := (hu.egress c).trans hq
    simp only [hqueue, State.startDesc_cons hhead] at hopen
    rw [hport, hopen]
    refine ⟨?_, fun k => ?_⟩
    · have hbytes : u.slotBytes d.slot d.length = s.slotBytes d.slot d.length := by simp only [State.slotBytes, hu.store]
      rw [State.port_modPort_same, ← hu.port, ← hu.refCount, ← hbytes]
      rfl
    · rw [hegress, hopen, ← hu.egress]
      have hset := State.egress_setEgress (u.lower p) p p c k rest
      simpa using hset
  · have hnone : u.choose p = .nothing := hu.choose.trans (State.choose_nothing hno hholder)
    exact hkept (by rw [hopen, hnone]; exact ⟨rfl, fun _ => rfl⟩)

end Sys2Proof.Machine
end

section
/-! The lateness check of one queue (O33) and the cycle end, with generation control's part at a round start (O27, O28). -/

namespace Sys2Proof.Machine

open Sys2Proof

/-! ### The lateness check of a queue (R88) -/

section

variable {s : State} {p : Port} {c : Cls}

/-- The copies of a queue that the lateness check takes. -/
abbrev State.lateOf (s : State) (p : Port) (c : Cls) : List Desc := (s.egress p c).filter (Desc.isLate s.timer.cycleCount)

/-- The state with the late copies of a queue taken out and counted late. -/
abbrev State.lateTaken (s : State) (p : Port) (c : Cls) : State :=
  (s.setEgress p c ((s.egress p c).filter fun d => !d.isLate s.timer.cycleCount)).addLate fun j =>
    (s.lateOf p c).countP fun d => decide (d.stream?.map BitVec.toNat = some j)

theorem State.checkQueue_eq : State.checkQueue p s c =
    { (s.lateTaken p c).disposeEach p ((s.lateOf p c).map fun d => (d, Reason.late)) with
      opportunities := (State.checkQueue p s c).opportunities } := by
  simp only [State.checkQueue, State.takeLate_foldl]
  split <;> rfl

/-- A count of the stream in a slot of the per-stream state is a count of the stream index. -/
theorem stream?_eq_some_iff (d : Desc) (i : Byte) : d.stream?.map BitVec.toNat = some i.toNat ↔ d.origin = .stream i := by
  unfold Desc.stream?
  rcases d.origin with j | _ | _ <;> simp [BitVec.toNat_inj]

/-- Disposals count nothing late. -/
theorem State.Disposed.late {s v : State} {l : List (Desc × Reason)} (h : s.Disposed v p l) (i : Byte) :
    (v.stream i).counters.late = (s.stream i).counters.late := by
  rw [h.2]
  simp only [State.stream, List.getD_eq_getElem?_getD, List.getElem?_mapIdx]
  cases s.streams[i.toNat]? <;> rfl

theorem State.late_addLate (f : Nat → Nat) {i : Byte} (hi : i.toNat < s.streams.length) :
    ((s.addLate f).stream i).counters.late = (s.stream i).counters.late + BitVec.ofNat 32 (f i.toNat) := by
  simp only [State.stream, State.addLate, List.getD_eq_getElem?_getD, List.getElem?_mapIdx, List.getElem?_eq_getElem hi]
  rfl

/-- Settles O33: the late copies are disposed of as one list, and the rest of the check is the queue and its head. -/
theorem latenessCheckTakesTheLateCopies : Obligations.LatenessCheckTakesTheLateCopies := by
  intro s p c late kept taken t
  let v := taken.disposeEach p (late.map fun d => (d, Reason.late))
  have hv : taken.Disposed v p (late.map fun d => (d, Reason.late)) := State.dispose_disposed p _ taken
  have ht : t = { v with opportunities := t.opportunities } := State.checkQueue_eq
  obtain ⟨-, -, -, -, -, -, -, -, -, -, -, hret, -⟩ := hv.facts
  have hkept : offeredOf p (late.map fun d => (d, Reason.late)) = kept := by
    rw [offeredOf, List.filterMap_map]
    refine List.filterMap_congr fun d _ => ?_
    simp only [Function.comp_apply]
    rcases d.origin <;> rfl
  refine ⟨⟨v, hv, ht⟩, ?_, fun q k hne => ?_, ?_, fun i hi => ?_, fun q => ?_, by simp [t], by simp [t], by simp [t], by simp [t]⟩
  · exact (s.egress_checkQueue p p c c).trans (if_pos ⟨rfl, rfl⟩)
  · exact (s.egress_checkQueue p q c k).trans (if_neg fun h => hne (Prod.ext h.1 h.2))
  · rw [ht, ← hkept]
    exact congrArg Retention.records hret
  · have hlate := hv.late i
    have hcount : late.countP (fun d => decide (d.stream?.map BitVec.toNat = some i.toNat)) =
        late.countP fun d => decide (d.origin = .stream i) := by simp only [stream?_eq_some_iff]
    rw [ht, ← hcount]
    exact hlate.trans (State.late_addLate (s := s.setEgress p c _) _ hi)
  · have ho := s.opportunities_checkQueue p c
    rw [show t.opportunities = _ from ho]
    split
    next hhead => rw [hhead, Trio.get_set]; by_cases hq : q = p <;> simp [hq]
    next hhead => simp [hhead]

end

/-! ### The notice sender (R146, R147) -/

section

variable {s : State} {k : NoticeKind}

theorem State.noticeWanted_iff : s.noticeWanted k = true ↔
    s.base.managerPresent = true ∧ s.base.noticeKinds.getLsbD k.place.val = true := by
  rw [State.noticeWanted, Bool.and_eq_true]

theorem State.noticeEvent_wanted (h : s.noticeWanted k = true) :
    s.noticeEvent k = s.setMark k (s.mgmt.notices.get k.place).event := if_pos h

theorem State.noticeEvent_unwanted (h : ¬ s.noticeWanted k = true) : s.noticeEvent k = s := if_neg h

theorem Quad.set_get_self {α : Type} (q : Quad α) (c : Cls) : q.set c (q.get c) = q := by
  fin_cases c <;> rfl

theorem State.setMark_self : s.setMark k (s.mgmt.notices.get k.place) = s := by
  rw [State.setMark, Quad.set_get_self]

/-- There is room for a management frame on a port (R68). -/
theorem State.mgmtAnswer_eq_accepted_iff (p : Port) (c : Cls) : s.mgmtAnswer p c = .accepted ↔
    (s.port p).state = .up ∧ (s.egress p c).length < 128 ∧ 1 ≤ s.descsFree := by
  unfold State.mgmtAnswer Config.queueCap
  by_cases hup : (s.port p).state = .up
  · rw [if_neg (by simp [State.isUp, hup])]
    split_ifs <;> simp_all [Nat.one_le_iff_ne_zero]
  · rw [if_pos (by simp [State.isUp, hup])]
    simp [hup]

theorem portOfCode_portCode (p : Port) : portOfCode (portCode p) = some p := by cases p <;> rfl

/-- The bytes of the notice that a try of `k` sends (12.3). -/
def State.noticeFrame (s : State) (k : NoticeKind) : List Byte :=
  noticeBytes s.base.manager s.base.node s.mgmt.noticeSeq k (s.mgmt.notices.get k.place).count s.mgmt.epoch
    (s.noticeValue k)

theorem State.length_noticeFrame : (s.noticeFrame k).length = 32 := by cases k <;> rfl

theorem State.tryNotice_idle (h : (s.mgmt.notices.get k.place).pending = false) : s.tryNotice k = s := by
  rw [State.tryNotice, if_neg (by simp [h])]

theorem State.tryNotice_unwanted (h : (s.mgmt.notices.get k.place).pending = true) (hw : ¬ s.noticeWanted k = true) :
    s.tryNotice k = s.setMark k ⟨false, 0⟩ := by
  rw [State.tryNotice, if_pos h, if_neg hw]

theorem State.tryNotice_noRoom {p : Port} (hp : portCode p = s.base.noticePort)
    (h : (s.mgmt.notices.get k.place).pending = true) (hw : s.noticeWanted k = true)
    (hno : s.mgmtAnswer p s.mgmtClass ≠ .accepted ∨ s.store.free = []) : s.tryNotice k = s := by
  rw [State.tryNotice, if_pos h, if_pos hw, ← hp, portOfCode_portCode]
  simp only
  split
  next hacc =>
    have hfree : s.store.free = [] := hno.resolve_left (not_not_intro hacc)
    simp only [State.takeSlot, hfree]
  all_goals rfl

theorem State.tryNotice_sent {p : Port} (hp : portCode p = s.base.noticePort)
    (h : (s.mgmt.notices.get k.place).pending = true) (hw : s.noticeWanted k = true)
    (hroom : s.mgmtAnswer p s.mgmtClass = .accepted) {n : Nat} {rest : List Nat} (hfree : s.store.free = n :: rest) :
    s.tryNotice k = State.setMark
      (State.append (State.writeSlot { s with
          store := { s.store with free := rest, count := s.store.count.set n 1 }
          mgmt := { s.mgmt with noticeSeq := s.mgmt.noticeSeq + 1 } } n (s.noticeFrame k)) p s.mgmtClass
        (mgmtDesc n s.mgmtClass 32)) k ⟨false, 0⟩ := by
  rw [State.tryNotice, if_pos h, if_pos hw, ← hp, portOfCode_portCode]
  simp only [hroom, State.takeSlot, hfree, State.buildNotice]
  unfold State.writeSlot
  split <;> rfl

end

/-- Settles O49: the events and the tries case by case, and the bytes of a notice kind by kind. -/
theorem noticesAreMarkedAndTried : Obligations.NoticesAreMarkedAndTried := by
  intro s k m p hm hp wanted room
  subst hm
  have hwanted : s.noticeWanted k = true ↔ wanted := State.noticeWanted_iff
  have hroom : s.mgmtAnswer p s.mgmtClass = .accepted ↔ room := State.mgmtAnswer_eq_accepted_iff p s.mgmtClass
  rw [← hwanted, ← hroom]
  refine ⟨State.noticeEvent_unwanted, fun hw hpend => ?_, fun hw hpend hc => ?_, fun hw hpend hc => ?_,
    State.tryNotice_idle, State.tryNotice_unwanted, fun hpend hw => State.tryNotice_noRoom hp hpend hw,
    fun n rest hpend hw hr hfree => ⟨s.noticeFrame k, State.tryNotice_sent hp hpend hw hr hfree, State.length_noticeFrame, ?_⟩⟩
  · rw [State.noticeEvent_wanted hw, NoticeMark.event, if_neg (by simp [hpend])]
  · rw [State.noticeEvent_wanted hw, NoticeMark.event, if_pos hpend, Nat.min_eq_right hc, hpend]
  · rw [State.noticeEvent_wanted hw, NoticeMark.event, if_pos hpend, hc]
    have hmark : s.mgmt.notices.get k.place = ⟨true, 255⟩ := by rw [← hpend, ← hc]
    have hself := State.setMark_self (s := s) (k := k)
    rw [hmark] at hself ⊢
    exact hself
  · refine ⟨rfl, rfl, rfl, rfl, rfl, rfl, rfl, ?_, ?_, ?_, ?_, ?_, ?_, rfl, ?_, ?_, ?_, ?_⟩
    · cases k <;> rfl
    · cases k with
      | portState => exact fun h => absurd rfl h
      | syncState | generation | retentionHigh => exact fun _ => rfl
    · cases k <;> rfl
    · cases k with
      | syncState | retentionHigh => exact fun _ => rfl
      | portState | generation => exact fun h => absurd h (by decide)
    · cases k <;> rfl
    · exact BitVec.toNat_ofNat ..
    · rintro rfl; rfl
    · rintro rfl; exact ⟨rfl, rfl, rfl⟩
    · rintro rfl
      exact (numAt_beBytes (headerBytes s.base.manager s.base.node kindNotice s.mgmt.noticeSeq 0 32 ++
        [2, BitVec.ofNat 8 (s.mgmt.notices.get 2).count, s.mgmt.epoch]) (List.replicate 11 0) 2 s.gen.number.toNat).trans
        (Nat.mod_eq_of_lt s.gen.number.isLt)
    · rintro rfl; exact BitVec.toNat_ofNat ..

/-! ### What the tries of a cycle end write -/

theorem State.readByte_writeSlot_other (s : State) (n : Nat) {bs : List Byte} (hl : bs.length = 32) {a : Nat}
    (ha : a < 512 * n ∨ 512 * n + 32 ≤ a) : readByte (s.writeSlot n bs).store.mem a = readByte s.store.mem a := by
  unfold State.writeSlot
  split
  · refine readByte_writeBytes_other _ _ _ _ ?_
    have hbase : slotBase n = 512 * n := by rw [slotBase, Config.slotBytes, Nat.mul_comm]
    rwa [List.take_of_length_le (by rw [hl]; decide), hl, hbase]
  · rfl

theorem State.store_buildNotice (s : State) (p : Port) (n : Nat) (k : NoticeKind) :
    (s.buildNotice p n k).store = (s.writeSlot n (s.noticeFrame k)).store := by
  simp only [State.buildNotice, State.nextNotice, State.setMark, State.append, State.raise, State.setEgress,
    State.noticeFrame]

/-- A try leaves the frame store, or builds its 32 bytes in the slot at the head of the free list. -/
theorem State.store_tryNotice (s : State) (k : NoticeKind) : (s.tryNotice k).store = s.store ∨
    ∃ n rest, s.store.free = n :: rest ∧ (s.tryNotice k).store.free = rest ∧
      ∀ a, a < 512 * n ∨ 512 * n + 32 ≤ a → readByte (s.tryNotice k).store.mem a = readByte s.store.mem a := by
  unfold State.tryNotice
  split
  · split
    · split
      · exact .inl rfl
      · split
        · split
          next slot t ht =>
            unfold State.takeSlot at ht
            split at ht
            · cases ht
            next n rest hfree =>
              obtain ⟨hn, rfl⟩ := Prod.mk.inj ht
              obtain rfl := Option.some.inj hn
              refine .inr ⟨n, rest, hfree, ?_, fun a ha => ?_⟩
              · rw [State.store_buildNotice, State.writeSlot]
                split <;> rfl
              · rw [State.store_buildNotice, State.readByte_writeSlot_other _ n State.length_noticeFrame ha]
          · exact .inl rfl
        all_goals exact .inl rfl
    · exact .inl rfl
  · exact .inl rfl

/-- The memory beyond the frames that the tries of some notices build, each in the slot at the head of the free list. -/
theorem State.readByte_tryNotices (l : List NoticeKind) (s : State) (a : Nat)
    (h : ∀ n ∈ s.store.free.take l.length, a < 512 * n ∨ 512 * n + 32 ≤ a) :
    readByte (l.foldl State.tryNotice s).store.mem a = readByte s.store.mem a := by
  induction l generalizing s with
  | nil => rfl
  | cons k l ih =>
    rw [List.foldl_cons]
    rcases s.store_tryNotice k with hs | ⟨n, rest, hfree, hrest, hmem⟩
    · rw [ih, hs]
      rw [hs]
      exact fun n hn => h n (List.take_subset_take_left _ (Nat.le_succ _) hn)
    · rw [hfree, List.length_cons, List.take_succ_cons] at h
      rw [ih, hmem a (h n List.mem_cons_self)]
      rw [hrest]
      exact fun m hm => h m (List.mem_cons_of_mem _ hm)

/-- Without the manager node no try builds a notice (R147). -/
theorem State.store_tryNotices_absent (l : List NoticeKind) (s : State) (h : s.base.managerPresent = false) :
    (l.foldl State.tryNotice s).store = s.store := by
  induction l generalizing s with
  | nil => rfl
  | cons k l ih =>
    have hk : (s.tryNotice k).store = s.store := by
      cases hpend : (s.mgmt.notices.get k.place).pending with
      | false => rw [State.tryNotice_idle hpend]
      | true =>
        rw [State.tryNotice_unwanted hpend (by simp [State.noticeWanted, h])]
        rfl
    rw [List.foldl_cons, ih _ (by simpa using h), hk]

/-! ### The count of a cycle end -/

theorem State.modTimer_modTimer (s : State) (f g : Timer → Timer) : (s.modTimer f).modTimer g = s.modTimer (g ∘ f) := rfl

/-- The accounting of a cycle without a usable SYNC (R30). -/
theorem Timer.counted_of_missed {b : BaseRecord} {t : Timer} {o : SyncState × Nat × Nat} (h : t.used = false)
    (ho : o = missedOutcome b.holdoverLimit.toNat t.sync t.good (min 65535 (t.missed + 1))) :
    t.counted b = { Timer.count b.cyclesPerRound.toNat t with sync := o.1, good := o.2.1, missed := o.2.2 } := by
  subst ho
  simp only [Timer.counted, Timer.count, h, missedOutcome, Config.acquireMisses, Config.lockMisses]
  generalize min 65535 (t.missed + 1) = m
  cases hs : t.sync with
  | free => simp
  | acquiring => by_cases hm : 16 ≤ m <;> simp [hm]
  | locked => by_cases hm : 4 ≤ m <;> simp [hm]
  | holdover => by_cases hm : b.holdoverLimit.toNat ≤ m <;> simp [hm]

/-- The state of a cycle end after its steps 1 to 5 (R20, R30). -/
theorem State.counted_eq (s : State) : s.counted = s.retimed (s.timer.counted s.base) := by
  unfold State.counted State.accountMissed
  split
  next hused =>
    have hused' : s.timer.used = true := hused
    have hsync : (s.timer.counted s.base).sync = s.timer.sync := by simp [Timer.counted, hused']
    rw [State.retimed, if_pos hsync]
    simp only [State.modTimer, Timer.count, Timer.counted, hused', if_true]
    simp
  next hused =>
    extract_lets o
    rw [State.modTimer_modTimer, State.changeSync_modTimer _ _ _ rfl,
      Timer.counted_of_missed (b := s.base) (t := s.timer) (o := o) (Bool.eq_false_iff.mpr hused) rfl]
    rfl

theorem State.noticeEvent_modTimer (s : State) (k : NoticeKind) (f : Timer → Timer) :
    (s.noticeEvent k).modTimer f = (s.modTimer f).noticeEvent k := by
  have hw : (s.modTimer f).noticeWanted k = s.noticeWanted k := rfl
  unfold State.noticeEvent
  rw [hw]
  split <;> rfl

/-- A change of the timer that keeps the sync state, after one that may change it. -/
theorem State.modTimer_retimed (s : State) (t : Timer) {f : Timer → Timer} (h : (f t).sync = t.sync) :
    (s.retimed t).modTimer f = s.retimed (f t) := by
  unfold State.retimed
  rw [h]
  split
  · rfl
  · exact State.noticeEvent_modTimer _ _ _

/-! ### A cycle end whole -/

section

variable {s : State}

theorem exec_cycleEnd_due (hp : s.power = .running) (h : s.timer.effLength ≤ s.timer.position) :
    exec .cycleEnd s = .next s.cycleEnd.settle :=
  congrArg Host.Outcome.next (if_pos ⟨hp, decide_eq_true h⟩)

/-- What follows the timer's and generation control's part of a cycle end (R55, R90, R147). -/
theorem State.cycleEndsAs_of {b : State} (hp : s.power = .running) (h : s.timer.effLength ≤ s.timer.position)
    (hb : s.cycleEndTimer = b) : s.CycleEndsAs b := by
  subst hb
  have hengine : (State.gatesCycleEnd s.base.unlocked s.cycleEndTimer).refreshBudgets.mgmt.engine = s.mgmt.engine := by
    simp
  rw [State.CycleEndsAs, exec_cycleEnd_due hp h, State.cycleEnd, State.tryNotices, hengine]
  simp only [List.foldl_cons, List.foldl_nil, State.refreshBudgets, State.mapStreams]

theorem State.port_retimed (t : Timer) (p : Port) : (s.retimed t).port p = s.port p := by
  simp [State.port]

/-- The gates' part of a cycle end leaves the requests, the conditions and the answers. -/
theorem State.mgmt_gatesCycleEnd (o : UnlockedPolicy) :
    (State.gatesCycleEnd o s).mgmt = { s.mgmt with notices := (State.gatesCycleEnd o s).mgmt.notices } := by
  obtain ⟨_, _, _, _, _, _, _, hrequests, hengine, hanswered, hcontrol, hconditions, hseq, hepoch, hdrain, _⟩ :=
    s.gatesCycleEnd_frame o
  have h := Management.eq_of_kept hrequests hengine hanswered hcontrol hconditions hepoch hdrain
  rwa [hseq] at h

/-- The notices of a cycle end leave the requests, the conditions and the answers. -/
theorem State.mgmt_tryNotices : s.tryNotices.mgmt =
    { s.mgmt with notices := s.tryNotices.mgmt.notices, noticeSeq := s.tryNotices.mgmt.noticeSeq } := by
  obtain ⟨_, _, _, _, _, _, _, _, _, hrequests, hengine, hanswered, hcontrol, hconditions, hepoch, hdrain, _⟩ :=
    s.tryNotices_frame
  exact Management.eq_of_kept hrequests hengine hanswered hcontrol hconditions hepoch hdrain

/-- A cycle end at which generation control does nothing (R20, R21). -/
theorem State.cycleEndTimer_of_quiet (h : s.counted.atRoundStart = s.counted) :
    s.cycleEndTimer = s.retimed ((s.timer.counted s.base).lengthFixed s.base) := by
  have hbase : s.counted.base = s.base := congrArg (fun g : Generation => g.active.base) s.counted_keeps.1
  have hdef : s.cycleEndTimer = s.counted.atRoundStart.modTimer (Timer.fixLength s.counted.atRoundStart.base.cycleLength.toNat) :=
    rfl
  rw [hdef, h, hbase, State.counted_eq, State.modTimer_retimed _ _ rfl]
  rfl

theorem State.atRoundStart_quiet (h : s.gen.commit = none ∨ s.timer.index ≠ 0 ∨
    ∃ c r, s.gen.commit = some c ∧ c.target = .atRound r ∧ r ≠ s.timer.round) : s.atRoundStart = s := by
  unfold State.atRoundStart
  split
  next hindex =>
    rcases h with hnone | hno | ⟨c, r, hc, hr, hne⟩
    · simp only [State.roundStart, hnone]
    · exact absurd hindex hno
    · simp only [State.roundStart, hc, hr, Target.dueAt, decide_eq_false hne]
      rfl
  · rfl

end

/-- Settles O27: the timer by its parts, and the rest of the cycle end by the frames of the gates and the notices. -/
theorem cycleEndAdvancesTheTimer : Obligations.CycleEndAdvancesTheTimer := by
  intro s index acc hp hindex hacc missed
  refine ⟨fun hearly => ?_, fun hdue hquiet => ?_⟩
  · have hno : ¬ (s.power = .running ∧ s.cycleEndDue = true) := fun h => Nat.not_le_of_lt hearly (of_decide_eq_true h.2)
    simp only [exec, execCycleEnd, if_neg hno]
  have hcounted : s.counted.timer.index = index ∧ s.counted.timer.round = (if index = 0 then s.timer.round + 1 else s.timer.round) ∧
      s.counted.gen.commit = s.gen.commit := by
    rw [State.counted_eq, hindex]
    simp [Timer.counted]
  obtain ⟨hci, hcr, hcc⟩ := hcounted
  have hround : s.counted.atRoundStart = s.counted := State.atRoundStart_quiet (by
    rw [hci, hcr, hcc]
    by_cases h0 : index = 0
    · rw [if_pos h0]
      exact hquiet
    · exact .inr (.inl h0))
  intro m
  have htimer : s.cycleEndTimer = m := State.cycleEndTimer_of_quiet hround
  have hmgmt : m.mgmt = { s.mgmt with notices := m.mgmt.notices } := s.mgmt_retimed _
  let g := State.gatesCycleEnd s.base.unlocked m
  have hcycle : s.cycleEnd = g.refreshBudgets.tryNotices := by rw [State.cycleEnd, htimer]
  have hstreams : s.SameStreams g := by
    simp only [g, State.gatesCycleEnd_eq]
    exact (m.sameStreams_renewal _ _).trans (State.sameStreams_of_streams (by simp [m]))
  have hmem : g.refreshBudgets.store.mem = s.store.mem := by simp [g, m]
  have hfinal : s.cycleEnd.settle.streams = g.streams.map fun st => { st with budgetUsed := 0 } := by
    simp only [hcycle, State.settle_frame, State.tryNotices_frame]
    rfl
  have hstore : s.cycleEnd.settle.store = g.refreshBudgets.tryNotices.store := by simp [hcycle]
  refine ⟨State.cycleEndsAs_of hp hdue htimer, s.cycleEnd.settle, exec_cycleEnd_due hp hdue, ?_, ?_, ?_, ?_, ?_, ?_, ?_, ?_, ?_⟩
  · simp [hcycle, g, m]
  · simp [hcycle, g, m]
  · have hg : g.refreshBudgets.mgmt = { s.mgmt with notices := g.refreshBudgets.mgmt.notices } := by
      have hgm : g.mgmt = { m.mgmt with notices := g.mgmt.notices } := m.mgmt_gatesCycleEnd _
      rw [hmgmt] at hgm
      simpa only [State.refreshBudgets_frame] using hgm
    rw [show s.cycleEnd.settle.mgmt = g.refreshBudgets.tryNotices.mgmt by simp [hcycle], State.mgmt_tryNotices, hg]
  · rintro (habsent | hstopped)
    · have hbase : g.refreshBudgets.base.managerPresent = false := by simpa [g, m, State.base] using habsent
      rw [hstore, State.tryNotices]
      split
      · exact hmem
      · rw [State.store_tryNotices_absent _ _ hbase, hmem]
    · have hengine : g.refreshBudgets.mgmt.engine = .stopped := by
        have hm : m.mgmt.engine = s.mgmt.engine := by rw [hmgmt]
        simpa [g, hm] using hstopped
      rw [hstore, State.tryNotices, if_pos hengine, hmem]
  · intro a ha
    rw [hstore, State.tryNotices, ← hmem]
    split
    · rfl
    · exact State.readByte_tryNotices _ _ a ha
  · simp [hcycle, g, m, State.port_retimed]
  · have hfinal : s.cycleEnd.settle.timer = (s.timer.counted s.base).lengthFixed s.base := by simp [hcycle, g, m]
    rw [hfinal, hindex, hacc]
    rfl
  · rw [hfinal]
    intro i hi
    rw [List.length_map] at hi
    simp [List.getElem?_eq_getElem hi]
  · intro i
    have hi := State.stream_of_rest hstreams i
    refine ⟨Eq.trans ?_ hi.1, Eq.trans ?_ hi.2.2⟩ <;>
      simp only [State.stream, hfinal, List.getD_eq_getElem?_getD, List.getElem?_map] <;>
      cases g.streams[i.toNat]? <;> rfl

end Sys2Proof.Machine
end

section
/-! The round start of a cycle end (R126, R127): a due commit swaps or fails (O28). -/

namespace Sys2Proof.Machine

open Sys2Proof

/-! ### Completions beside the timer -/

section

variable {s : State} {f : Timer → Timer}

theorem State.sendReply_modTimer (p : Port) (n : Nat) (r : Reply) :
    (s.modTimer f).sendReply p n r = (s.sendReply p n r).modTimer f := by
  have hbuild : (s.modTimer f).buildReply n r = (s.buildReply n r).modTimer f := by
    simp only [State.buildReply, State.writeSlot]
    split <;> rfl
  have hrelease : ∀ t : State, (t.modTimer f).releaseSlot n = (t.releaseSlot n).modTimer f := fun t => by
    have hcount : (t.modTimer f).slotCount n = t.slotCount n := rfl
    simp only [State.releaseSlot, hcount]
    split <;> rfl
  have hanswer : ∀ t : State, (t.modTimer f).mgmtAnswer p (t.modTimer f).mgmtClass = t.mgmtAnswer p t.mgmtClass := fun _ => rfl
  have hlost : ∀ t : State, (t.modTimer f).countPort p PortCounters.incMgmtLost =
      (t.countPort p PortCounters.incMgmtLost).modTimer f := fun _ => rfl
  simp only [State.sendReply, State.appendReply, hbuild, hanswer, hlost, hrelease]
  split <;> rfl

theorem State.completeOp_modTimer (requester : Byte) (tag : W16) (p : Port) (kind : Byte) (slot : Option Nat)
    (status : Status) (failure : Option Detail) : (s.modTimer f).completeOp requester tag p kind slot status failure =
      (s.completeOp requester tag p kind slot status failure).modTimer f := by
  unfold State.completeOp
  split
  · exact State.sendReply_modTimer (s := s.recordAnswer requester tag kind status) ..
  · split <;> rfl

theorem State.completeCommit_of_some {c : Commit} (h : s.gen.commit = some c) (status : Status) (failure : Option Detail) :
    s.completeCommit status failure =
      (s.setCommit none).completeOp c.requester c.tag c.ingress 0x0A c.slot status failure := by
  simp only [State.completeCommit, h]
  rfl

/-- Of the conditions an operation's end files at most its own (R143, R144). -/
theorem State.conditions_completeOp (requester : Byte) (tag : W16) (p : Port) (kind : Byte) (slot : Option Nat)
    (status : Status) (d : Detail) : (s.completeOp requester tag p kind slot status (some d)).mgmt.conditions =
      if slot = none then (s.fileCondition requester tag kind status d).mgmt.conditions else s.mgmt.conditions := by
  cases slot <;> simp [State.completeOp]

end

/-! ### The swap (R35, R127) -/

section

variable {s : State}

/-- The timer as a base record is taken into use in the place of `old` (R35). -/
def Timer.takenUp (old new : BaseRecord) (t : Timer) : Timer :=
  { t with
    slew := if new.cycleLength = old.cycleLength then t.slew else none
    sync := if new.timingPort ≠ old.timingPort ∧ t.sync = .locked then .holdover else t.sync
    missed := if new.timingPort ≠ old.timingPort ∧ t.sync = .locked then 0 else t.missed }

theorem State.takeBaseIntoUse_eq (old : BaseRecord) : s.takeBaseIntoUse old = s.retimed (s.timer.takenUp old s.base) := by
  unfold State.takeBaseIntoUse
  extract_lets u
  have hu : u = s.modTimer fun t => { t with slew := if s.base.cycleLength = old.cycleLength then t.slew else none } := by
    by_cases h : s.base.cycleLength = old.cycleLength
    · simp only [u, if_pos h]
      rfl
    · simp only [u, if_neg h]
  have hcond : (u.base.timingPort ≠ old.timingPort ∧ u.timer.sync = .locked) ↔
      (s.base.timingPort ≠ old.timingPort ∧ s.timer.sync = .locked) := by rw [hu]; rfl
  split
  next h =>
    have h' := hcond.mp h
    rw [hu, State.modTimer_modTimer, State.changeSync_modTimer _ _ _ rfl]
    congr 1
    simp only [Timer.takenUp, if_pos h']
    rfl
  next h =>
    have h' := mt hcond.mpr h
    rw [State.retimed, if_pos (by simp only [Timer.takenUp, if_neg h']), hu]
    simp only [Timer.takenUp, if_neg h']
    rfl

/-- The state as the swap makes the shadow bank the active one (R127). -/
abbrev State.swapped (s : State) : State := { s with
  gen := { active := s.gen.shadow, shadow := s.gen.active, number := s.gen.number + 1, commit := none }
  streams := s.streams.map fun st => { st with expectation := none } }

theorem State.noticeEvent_setCommit (k : NoticeKind) (o : Option Commit) :
    (s.noticeEvent k).setCommit o = (s.setCommit o).noticeEvent k := by
  have hw : (s.setCommit o).noticeWanted k = s.noticeWanted k := rfl
  unfold State.noticeEvent
  rw [hw]
  split <;> rfl

theorem State.retimed_setCommit (t : Timer) (o : Option Commit) :
    (s.retimed t).setCommit o = (s.setCommit o).retimed t := by
  unfold State.retimed
  have hsync : (s.setCommit o).timer.sync = s.timer.sync := rfl
  rw [hsync]
  split
  · rfl
  · exact State.noticeEvent_setCommit _ _

/-- A swap, and the effective length of the first cycle of the new bank (R21, R127). -/
theorem State.swap_fixLength {c : Commit} (hc : s.gen.commit = some c) :
    s.swap.modTimer (Timer.fixLength s.swap.base.cycleLength.toNat) = State.completeOp
      ((s.swapped.retimed (Timer.lengthFixed s.gen.shadow.base (s.timer.takenUp s.base s.gen.shadow.base))).noticeEvent
        .generation) c.requester c.tag c.ingress 0x0A c.slot .done none := by
  have hbase : s.swap.base = s.gen.shadow.base := by simp [State.swap, State.base, State.exchangeBanks]
  rw [hbase, State.swap, State.takeBaseIntoUse_eq, State.completeCommit_of_some (c := c) (by simpa using hc),
    ← State.completeOp_modTimer, State.noticeEvent_setCommit, State.retimed_setCommit, State.noticeEvent_modTimer,
    State.modTimer_retimed _ _ rfl]
  rfl

end

/-- What the rest of a cycle end leaves as generation control left it. -/
theorem State.cycleEnd_keeps {s b : State} (h : s.cycleEndTimer = b) : s.cycleEnd.settle.gen = b.gen ∧
    s.cycleEnd.settle.timer = b.timer ∧ s.cycleEnd.settle.mgmt.conditions = b.mgmt.conditions ∧
    ∀ i, (s.cycleEnd.settle.stream i).expectation = (b.stream i).expectation := by
  subst h
  refine ⟨by simp [State.cycleEnd], by simp [State.cycleEnd], by simp [State.cycleEnd], fun i => ?_⟩
  have hgates : s.cycleEndTimer.SameStreams (State.gatesCycleEnd s.base.unlocked s.cycleEndTimer) := by
    rw [State.gatesCycleEnd_eq]
    exact s.cycleEndTimer.sameStreams_renewal _ _
  have hfinal : s.cycleEnd.settle.streams =
      (State.gatesCycleEnd s.base.unlocked s.cycleEndTimer).streams.map fun st => { st with budgetUsed := 0 } := by
    simp only [State.cycleEnd, State.settle_frame, State.tryNotices_frame]
    rfl
  refine Eq.trans ?_ (State.stream_of_rest hgates i).2.2
  simp only [State.stream, hfinal, List.getD_eq_getElem?_getD, List.getElem?_map]
  cases (State.gatesCycleEnd s.base.unlocked s.cycleEndTimer).streams[i.toNat]? <;> rfl

/-- Settles O28: the swap is `State.swap_fixLength`, and the rest of the cycle end leaves what it made. -/
theorem dueCommitSwapsOrFails : Obligations.DueCommitSwapsOrFails := by
  intro s c hp hdue hlast hc x new leaves swapped begun failed
  have hx : s.counted = x := s.counted_eq
  have hxgen : x.gen = s.gen := by simp [x]
  have hxbase : x.base = s.base := by simp [State.base, x]
  have hxindex : x.timer.index = 0 := by simp [x, Timer.counted, hlast]
  have hxround : x.timer.round = s.timer.round + 1 := by simp [x, Timer.counted, hlast]
  have hxposition : x.timer.position = 0 := by simp [x, Timer.counted]
  have hxtrim : x.timer.trim = s.timer.trim := by simp [x, Timer.counted]
  have hxresidue : x.timer.residue = s.timer.residue := by simp [x, Timer.counted]
  have hxcommit : x.gen.commit = some c := by rw [hxgen, hc]
  have hdef : s.cycleEndTimer = x.roundStart.modTimer (Timer.fixLength x.roundStart.base.cycleLength.toNat) := by
    have hround : x.atRoundStart = x.roundStart := if_pos hxindex
    rw [← hround, ← hx]
    rfl
  refine ⟨fun htarget => ?_, fun htarget hsync => ?_, fun r hr hne => ?_⟩
  · have hswap : x.roundStart = x.swap := by
      rcases htarget with ht | ⟨ht, hsync⟩
      · simp only [State.roundStart, hxcommit, ht, Target.dueAt, Target.maySwap, if_true]
      · simp [State.roundStart, hxcommit, ht, Target.dueAt, Target.maySwap, hxround, hsync]
    have hb : s.cycleEndTimer = State.completeOp (begun.noticeEvent .generation) c.requester c.tag c.ingress 0x0A c.slot
        .done none := by
      have hswapped : x.swapped = swapped := by
        simp only [State.swapped, swapped, hxgen]
        simp [x]
      have htaken : Timer.lengthFixed x.gen.shadow.base (x.timer.takenUp x.base x.gen.shadow.base) =
          Timer.lengthFixed new { x.timer with
            slew := if new.cycleLength = s.base.cycleLength then s.timer.slew else none
            sync := if leaves then .holdover else x.timer.sync
            missed := if leaves then 0 else x.timer.missed } := by
        rw [hxgen, hxbase]
        simp [Timer.takenUp, new, leaves, x, Timer.counted]
      rw [hdef, hswap, State.swap_fixLength hxcommit, hswapped, htaken]
    obtain ⟨hgen, htimer, -, hexp⟩ := State.cycleEnd_keeps hb
    refine ⟨State.cycleEndsAs_of hp hdue hb, s.cycleEnd.settle, exec_cycleEnd_due hp hdue, ?_, ?_, ?_, ?_, ?_, ?_, ?_, ?_⟩
    · rw [hgen]
      simp [begun, swapped]
    iterate 3
      · rw [htimer]
        simp [begun, Timer.lengthFixed, hxround, hxindex, hxposition]
    · rw [htimer]
      simp only [begun, State.completeOp_frame, State.noticeEvent_frame, State.retimed_frame, Timer.lengthFixed, hxtrim,
        hxresidue]
      split_ifs <;> rfl
    iterate 2
      · rw [htimer]
        simp [begun, Timer.lengthFixed]
    · intro i
      rw [hexp]
      simp only [State.stream, begun, swapped, State.completeOp_frame, State.noticeEvent_frame, State.retimed_frame,
        List.getD_eq_getElem?_getD, List.getElem?_map]
      cases s.streams[i.toNat]? <;> rfl
  · have hno : Target.maySwap c.target x.timer.sync = false := by
      rcases hsync with h | h <;> simp [htarget, Target.maySwap, h]
    rw [htarget] at hno
    have hfail : x.roundStart = x.failCommit .notSynced (s.timer.round + 1) := by
      simp only [State.roundStart, hxcommit, htarget, hno, Target.dueAt, hxround, decide_true, if_true]
      rfl
    have hfailed : (x.setCommit none).modTimer (Timer.fixLength s.base.cycleLength.toNat) = failed := by
      simp only [failed, ← hxgen]
      rfl
    have hb : s.cycleEndTimer = failed.completeOp c.requester c.tag c.ingress 0x0A c.slot .notSynced
        (some (.round (s.timer.round + 1))) := by
      have hbase : (x.failCommit .notSynced (s.timer.round + 1)).base = s.base := by simpa using hxbase
      rw [hdef, hfail, hbase, State.failCommit, State.completeCommit_of_some hxcommit, ← State.completeOp_modTimer, hfailed]
    obtain ⟨hgen, htimer, hcond, hexp⟩ := State.cycleEnd_keeps hb
    refine ⟨State.cycleEndsAs_of hp hdue hb, s.cycleEnd.settle, exec_cycleEnd_due hp hdue, ?_, ?_, ?_⟩
    · rw [hgen]
      simp [failed]
    · intro i
      rw [hexp]
      simp [State.stream, failed, x]
    · have hxcond : failed.mgmt.conditions = s.mgmt.conditions := by
        simp only [failed, x]
        rw [State.mgmt_retimed]
      rw [hcond, State.conditions_completeOp, hxcond]
      rfl
  · have hround : s.counted.atRoundStart = s.counted := by
      rw [hx]
      exact State.atRoundStart_quiet (.inr (.inr ⟨c, r, hxcommit, hr, by rwa [hxround]⟩))
    obtain ⟨hgen, -⟩ := State.cycleEnd_keeps (State.cycleEndTimer_of_quiet hround)
    exact ⟨s.cycleEnd.settle, exec_cycleEnd_due hp hdue, hgen.trans (by simp)⟩

end Sys2Proof.Machine
end

section
/-! Validation of a bank (R125): it passes exactly the sound banks, and names the first failure (O35). -/

namespace Sys2Proof.Machine

open Sys2Proof

/-! ### The first failure of a list of checks -/

/-- Two lists of checks say the same, one by one. -/
abbrev ChecksOf (checks : List Bool) (conditions : List Prop) : Prop :=
  List.Forall₂ (fun b c => b = true ↔ c) checks conditions

theorem firstFailure_eq_some_iff (checks : List Bool) (k : Nat) : firstFailure checks = some k ↔
    1 ≤ k ∧ checks[k - 1]? = some false ∧ ∀ j x, j + 1 < k → checks[j]? = some x → x = true := by
  rw [firstFailure, Option.map_eq_some_iff]
  simp only [List.find?_eq_some_iff_getElem, List.length_zipIdx, List.getElem_zipIdx, Nat.zero_add]
  constructor
  · rintro ⟨⟨b, n⟩, ⟨hb, i, hi, heq, hbefore⟩, rfl⟩
    obtain ⟨rfl, rfl⟩ := Prod.mk.inj heq
    refine ⟨Nat.le_add_left .., ?_, fun j x hj hx => ?_⟩
    · rw [Nat.add_sub_cancel, List.getElem?_eq_getElem hi]
      simpa using hb
    · obtain ⟨hlt, rfl⟩ := List.getElem?_eq_some_iff.mp hx
      simpa using hbefore j (Nat.lt_of_succ_lt_succ hj)
  · rintro ⟨h1, hk, hbefore⟩
    obtain ⟨hlt, hfalse⟩ := List.getElem?_eq_some_iff.mp hk
    refine ⟨(false, k - 1), ⟨rfl, k - 1, hlt, by rw [hfalse], fun j hj => ?_⟩, Nat.sub_add_cancel h1⟩
    simpa using hbefore j _ (Nat.add_lt_of_lt_sub hj) (List.getElem?_eq_getElem (hj.trans hlt))

section

variable {checks : List Bool} {conditions : List Prop}

theorem ChecksOf.getElem? (h : ChecksOf checks conditions) (i : Nat) :
    (checks[i]? = none ∧ conditions[i]? = none) ∨
      ∃ b c, checks[i]? = some b ∧ conditions[i]? = some c ∧ (b = true ↔ c) := by
  induction h generalizing i with
  | nil => exact .inl ⟨rfl, rfl⟩
  | cons hbc _ ih =>
    cases i with
    | zero => exact .inr ⟨_, _, rfl, rfl, hbc⟩
    | succ i => exact ih i

theorem ChecksOf.firstFailure_eq_none (h : ChecksOf checks conditions) :
    firstFailure checks = none ↔ ∀ c ∈ conditions, c := by
  rw [firstFailure_eq_none_iff]
  induction h with
  | nil => simp
  | cons hbc _ ih => simp only [List.forall_mem_cons, hbc, ih]

theorem ChecksOf.firstFailure_eq_some (h : ChecksOf checks conditions) (k : Nat) :
    firstFailure checks = some k ↔ FirstFails conditions k := by
  have hbefore : (∀ j x, j + 1 < k → checks[j]? = some x → x = true) ↔
      ∀ j x, j + 1 < k → conditions[j]? = some x → x := by
    refine forall_congr' fun j => ?_
    rcases h.getElem? j with ⟨hb, hc⟩ | ⟨b, c, hb, hc, hbc⟩
    · simp [hb, hc]
    · constructor
      · intro hall x hj hx
        obtain rfl := Option.some.inj (hc.symm.trans hx)
        exact hbc.mp (hall b hj hb)
      · intro hall x hj hx
        obtain rfl := Option.some.inj (hb.symm.trans hx)
        exact hbc.mpr (hall c hj hc)
  rw [firstFailure_eq_some_iff, FirstFails, hbefore]
  rcases h.getElem? (k - 1) with ⟨hb, hc⟩ | ⟨b, c, hb, hc, hbc⟩
  · simp [hb, hc]
  · rw [hb, Option.some_inj, ← Bool.not_eq_true, hbc]
    exact ⟨fun ⟨h1, h2, h3⟩ => ⟨c, h1, hc, h2, h3⟩, fun ⟨d, h1, h2, h3, h4⟩ =>
      ⟨h1, Option.some.inj (hc.symm.trans h2) ▸ h3, h4⟩⟩

end

/-! ### The first failure of a table -/

/-- The first failure of a table's entries from index `i` on (R125). -/
theorem firstInvalid_eq_some_iff {α : Type} (table : Byte) (valid : α → Bool) (checks : α → List Bool) (i : Nat)
    (l : List α) (f : Invalid) : firstInvalid table valid checks i l = some f ↔
      f.table = table ∧ ∃ n e, f.index = i + n ∧ l[n]? = some e ∧ valid e = true ∧ firstFailure (checks e) = some f.check ∧
        ∀ x ∈ l.take n, valid x = true → firstFailure (checks x) = none := by
  induction l generalizing i with
  | nil => simp [firstInvalid]
  | cons e l ih =>
    unfold firstInvalid
    cases hf : (if valid e then firstFailure (checks e) else none) with
    | some k =>
      have hv : valid e = true := by
        by_contra hv
        simp [hv] at hf
      rw [if_pos hv] at hf
      simp only [Option.some_inj]
      constructor
      · rintro rfl
        exact ⟨rfl, 0, e, rfl, rfl, hv, hf, by simp⟩
      · rintro ⟨ht, n, x, hn, hx, -, hfx, hbefore⟩
        cases n with
        | zero =>
          obtain rfl : e = x := by simpa using hx
          rw [hf, Option.some_inj] at hfx
          cases f
          simp_all
        | succ n =>
          have := hbefore e (by simp) hv
          rw [hf] at this
          cases this
    | none =>
      have hpass : valid e = true → firstFailure (checks e) = none := fun hv => by rwa [if_pos hv] at hf
      simp only [ih]
      refine and_congr_right fun _ => ⟨fun ⟨n, x, hn, hx, hv, hfx, hbefore⟩ => ⟨n + 1, x, by omega, hx, hv, hfx, ?_⟩,
        fun ⟨n, x, hn, hx, hv, hfx, hbefore⟩ => ?_⟩
      · rw [List.take_succ_cons, List.forall_mem_cons]
        exact ⟨hpass, hbefore⟩
      · cases n with
        | zero =>
          obtain rfl : e = x := by simpa using hx
          rw [hpass hv] at hfx
          cases hfx
        | succ n =>
          rw [List.take_succ_cons, List.forall_mem_cons] at hbefore
          exact ⟨n, x, by omega, hx, hv, hfx, hbefore.2⟩

theorem firstInvalid_zero_eq_some_iff {α : Type} (table : Byte) (valid : α → Bool) (checks : α → List Bool)
    (l : List α) (f : Invalid) : firstInvalid table valid checks 0 l = some f ↔
      f.table = table ∧ ∃ e, l[f.index]? = some e ∧ valid e = true ∧ firstFailure (checks e) = some f.check ∧
        ∀ x ∈ l.take f.index, valid x = true → firstFailure (checks x) = none := by
  simp only [firstInvalid_eq_some_iff, Nat.zero_add]
  refine and_congr_right fun _ => ⟨fun ⟨n, e, hn, h⟩ => ⟨e, hn ▸ h⟩, fun ⟨e, h⟩ => ⟨f.index, e, rfl, h⟩⟩

/-! ### The checks of the tables (R125) -/

theorem Trio.get_mem_toList {α : Type} (t : Trio α) (p : Port) : t.get p ∈ t.toList := by
  cases p <;> simp [Trio.get, Trio.toList]

theorem Trio.exists_get_of_mem {α : Type} {t : Trio α} {x : α} (h : x ∈ t.toList) : ∃ p, t.get p = x := by
  simp only [Trio.toList, List.mem_cons, List.not_mem_nil, or_false] at h
  rcases h with rfl | rfl | rfl <;> [exact ⟨.A, rfl⟩; exact ⟨.B, rfl⟩; exact ⟨.L, rfl⟩]

theorem Quad.get_mem_toList {α : Type} (q : Quad α) (c : Cls) : q.get c ∈ q.toList := by
  fin_cases c <;> simp [Quad.get, Quad.toList]

theorem Quad.exists_get_of_mem {α : Type} {q : Quad α} {x : α} (h : x ∈ q.toList) : ∃ c, q.get c = x := by
  simp only [Quad.toList, List.mem_cons, List.not_mem_nil, or_false] at h
  rcases h with rfl | rfl | rfl | rfl <;> [exact ⟨0, rfl⟩; exact ⟨1, rfl⟩; exact ⟨2, rfl⟩; exact ⟨3, rfl⟩]

theorem BaseRecord.checks_iff (b : BaseRecord) : ChecksOf b.checks b.Conditions := by
  have hlimits : (b.limits.toList.all fun q => q.toList.all fun l => decide (1 ≤ l.toNat) && decide (l.toNat ≤ 128)) = true ↔
      ∀ p c, 1 ≤ ((b.limits.get p).get c).toNat ∧ ((b.limits.get p).get c).toNat ≤ 128 := by
    simp only [List.all_eq_true, Bool.and_eq_true, decide_eq_true_eq]
    refine ⟨fun h p c => h _ (Trio.get_mem_toList _ p) _ (Quad.get_mem_toList _ c), fun h q hq l hl => ?_⟩
    obtain ⟨p, rfl⟩ := Trio.exists_get_of_mem hq
    obtain ⟨c, rfl⟩ := Quad.exists_get_of_mem hl
    exact h p c
  simp only [ChecksOf, BaseRecord.checks, BaseRecord.Conditions, List.forall₂_cons, hlimits, Bool.and_eq_true,
    decide_eq_true_eq, List.all_eq_true, List.forall₂_nil_left_iff, and_true, true_and, and_assoc, iff_self]
  rfl

theorem WindowEntry.checks_iff (b : BaseRecord) (w : WindowEntry) : ChecksOf (w.checks b) (w.Conditions b) := by
  have hmodulus : [1, 2, 4, 8, 16].contains w.modulus.toNat = true ↔
      w.modulus = 1 ∨ w.modulus = 2 ∨ w.modulus = 4 ∨ w.modulus = 8 ∨ w.modulus = 16 := by
    simp [BitVec.toNat_eq]
  simp only [ChecksOf, WindowEntry.checks, WindowEntry.Conditions, List.forall₂_cons, hmodulus, Bool.and_eq_true,
    Bool.or_eq_true, decide_eq_true_eq, List.forall₂_nil_left_iff, and_true, iff_self]

theorem StreamEntry.checks_iff (e : StreamEntry) : ChecksOf e.checks e.Conditions := by
  have hsole : (!e.routesToSole) = true ↔
      ¬ ((e.route = .port .A ∧ e.ports = 1) ∨ (e.route = .port .B ∧ e.ports = 2) ∨ (e.route = .port .L ∧ e.ports = 4)) := by
    rw [Bool.not_eq_true', StreamEntry.routesToSole]
    rcases e.route with p | _ | _
    · simp only [decide_eq_false_iff_not]
      cases p <;> simp [soleSet]
    all_goals simp
  simp only [ChecksOf, StreamEntry.checks, StreamEntry.Conditions, List.forall₂_cons, hsole, Bool.and_eq_true,
    Bool.or_eq_true, decide_eq_true_eq, List.forall₂_nil_left_iff, and_true, iff_self]

theorem Bank.validate_eq_none_iff (b : Bank) : b.validate = none ↔ firstFailure b.base.checks = none ∧
    firstInvalid 1 WindowEntry.valid (WindowEntry.checks b.base) 0 b.windows = none ∧
    firstInvalid 2 StreamEntry.valid StreamEntry.checks 0 b.streams = none := by
  unfold Bank.validate
  split
  next h => simp [h]
  next h => split <;> simp_all

theorem Bank.validate_eq_some_iff (b : Bank) (f : Invalid) : b.validate = some f ↔
    (f.table = 0 ∧ f.index = 0 ∧ firstFailure b.base.checks = some f.check) ∨
    (firstFailure b.base.checks = none ∧
      firstInvalid 1 WindowEntry.valid (WindowEntry.checks b.base) 0 b.windows = some f) ∨
    (firstFailure b.base.checks = none ∧
      firstInvalid 1 WindowEntry.valid (WindowEntry.checks b.base) 0 b.windows = none ∧
      firstInvalid 2 StreamEntry.valid StreamEntry.checks 0 b.streams = some f) := by
  unfold Bank.validate
  split
  next k h =>
    obtain ⟨table, check, index⟩ := f
    simp only [h, Option.some_inj, Invalid.mk.injEq, reduceCtorEq, false_and, or_false]
    exact ⟨fun ⟨h1, h2, h3⟩ => ⟨h1.symm, h3.symm, h2⟩, fun ⟨h1, h2, h3⟩ => ⟨h1.symm, h3, h2.symm⟩⟩
  next h => split <;> simp_all

/-- Settles O35: each table's checks are its conditions, and the first failure of each table is the first that fails. -/
theorem validationPassesExactlyTheSoundBanks : Obligations.ValidationPassesExactlyTheSoundBanks := by
  intro bank windowPasses streamPasses basePasses
  have hbase := bank.base.checks_iff
  have hwindow : ∀ w, (w.valid = true → firstFailure (w.checks bank.base) = none) ↔ windowPasses w := fun w =>
    imp_congr_right fun _ => (w.checks_iff bank.base).firstFailure_eq_none
  have hstream : ∀ e, (e.valid = true → firstFailure e.checks = none) ↔ streamPasses e := fun e =>
    imp_congr_right fun _ => e.checks_iff.firstFailure_eq_none
  have hwindows : firstInvalid 1 WindowEntry.valid (WindowEntry.checks bank.base) 0 bank.windows = none ↔
      ∀ w ∈ bank.windows, windowPasses w := by simp only [firstInvalid_eq_none_iff, hwindow]
  have hstreams : firstInvalid 2 StreamEntry.valid StreamEntry.checks 0 bank.streams = none ↔
      ∀ e ∈ bank.streams, streamPasses e := by simp only [firstInvalid_eq_none_iff, hstream]
  have hpasses : firstFailure bank.base.checks = none ↔ basePasses := hbase.firstFailure_eq_none
  rw [← hwindows, ← hstreams, ← hpasses]
  refine ⟨bank.validate_eq_none_iff, fun f => ?_⟩
  simp only [bank.validate_eq_some_iff, firstInvalid_zero_eq_some_iff, hbase.firstFailure_eq_some,
    (WindowEntry.checks_iff bank.base _).firstFailure_eq_some, (StreamEntry.checks_iff _).firstFailure_eq_some, hwindow,
    hstream]

end Sys2Proof.Machine
end

section
/-! The bytes of frames, replies and reports, read field by field (12.2), and the requests that only report: the end of an
outstanding operation (O37), IDENTIFY and READ STATUS (O38). -/

namespace Sys2Proof.Machine

open Sys2Proof

/-! ### Fields of a list of bytes -/

section

variable {l r : List Byte} {b : Byte} {i k n : Nat}

theorem byteAt_cons_zero : byteAt (b :: l) 0 = b := rfl

theorem byteAt_cons_of_pos (h : 1 ≤ i) : byteAt (b :: l) i = byteAt l (i - 1) := by
  obtain ⟨j, rfl⟩ := Nat.exists_eq_add_of_le' h
  rfl

theorem byteAt_append_of_ge (h : l.length ≤ i) : byteAt (l ++ r) i = byteAt r (i - l.length) := by
  obtain ⟨j, rfl⟩ := Nat.exists_eq_add_of_le h
  rw [byteAt_append_right, Nat.add_sub_cancel_left]

theorem byteAt_append_of_lt (h : i < l.length) : byteAt (l ++ r) i = byteAt l i := by
  rw [byteAt, byteAt, List.getD_eq_getElem?_getD, List.getD_eq_getElem?_getD, List.getElem?_append_left h]

theorem drop_append_of_ge (h : l.length ≤ i) : (l ++ r).drop i = r.drop (i - l.length) := by
  rw [List.drop_append, List.drop_of_length_le h, List.nil_append]

theorem drop_cons_of_pos (h : 1 ≤ i) : (b :: l).drop i = l.drop (i - 1) := by
  obtain ⟨j, rfl⟩ := Nat.exists_eq_add_of_le' h
  rfl

theorem numAt_append_of_ge (h : l.length ≤ i) : numAt (l ++ r) i k = numAt r (i - l.length) k := by
  rw [numAt, numAt, drop_append_of_ge h]

theorem numAt_append_of_le (h : i + k ≤ l.length) : numAt (l ++ r) i k = numAt l i k := by
  rw [numAt, numAt, List.drop_append_of_le_length (by omega), List.take_append_of_le_length (by rw [List.length_drop]; omega)]

theorem numAt_cons_of_pos (h : 1 ≤ i) : numAt (b :: l) i k = numAt l (i - 1) k := by
  rw [numAt, numAt, drop_cons_of_pos h]

/-- The bytes of a segment stand at its offset. -/
theorem byteAt_of_segment {seg : List Byte} (h : (l.drop i).take n = seg) (hk : k < n) :
    byteAt l (i + k) = byteAt seg k := by
  rw [← h, byteAt_take _ hk, byteAt, byteAt, List.getD_eq_getElem?_getD, List.getD_eq_getElem?_getD, List.getElem?_drop]

theorem numAt_of_segment {seg : List Byte} {j : Nat} (h : (l.drop i).take n = seg) (hk : j + k ≤ n) :
    numAt l (i + j) k = numAt seg j k := by
  rw [← h, numAt_take _ hk, numAt, numAt, List.drop_drop]

theorem numAt_beBytes_append : numAt (beBytes k n ++ r) 0 k = n % 256 ^ k := numAt_beBytes [] r k n

theorem numAt_beBytes_self : numAt (beBytes k n) 0 k = n % 256 ^ k := by
  simpa using numAt_beBytes_append (r := [])

end

/-- The bytes of a reply before its data (12.2). -/
def replyHead (r : Reply) (node epoch : Byte) (generation : W16) : List Byte :=
  headerBytes r.requester node kindReply r.sequence r.streamTag (replyLength r) ++ beBytes 2 r.tag.toNat ++
    [r.kind, statusCode r.status, flagByte r.isRepeat ||| (flagByte r.isCond <<< 1), epoch] ++
    beBytes 2 generation.toNat ++ beBytes 2 r.residue

theorem replyHead_length (r : Reply) (node epoch : Byte) (generation : W16) :
    (replyHead r node epoch generation).length = 26 := by
  simp [replyHead, headerBytes]

theorem replyBytes_eq (r : Reply) (node epoch : Byte) (generation : W16) : replyBytes r node epoch generation =
    replyHead r node epoch generation ++ (r.data ++ List.replicate (replyLength r - 26 - r.data.length) 0) :=
  List.append_assoc ..

theorem replyHead_fields (r : Reply) (node epoch : Byte) (generation : W16) :
    let head := replyHead r node epoch generation
    byteAt head 0x00 = r.requester ∧ byteAt head 0x01 = node ∧ byteAt head 0x02 = 0x04 ∧
    byteAt head 0x03 = r.sequence ∧ numAt head 0x04 2 = r.streamTag.toNat ∧
    numAt head 0x06 2 = replyLength r % 65536 ∧ (head.drop 0x08).take 8 = [0, 0, 0, 0, 0, 0, 0, 0] ∧
    numAt head 0x10 2 = r.tag.toNat ∧ byteAt head 0x12 = r.kind ∧ byteAt head 0x13 = statusCode r.status ∧
    (byteAt head 0x14).toNat = (if r.isRepeat then 1 else 0) + (if r.isCond then 2 else 0) ∧
    byteAt head 0x15 = epoch ∧ numAt head 0x16 2 = generation.toNat ∧ numAt head 0x18 2 = r.residue % 65536 := by
  intro head
  have hmod : ∀ w : W16, w.toNat % 65536 = w.toNat := fun w => Nat.mod_eq_of_lt w.isLt
  have hflags : (flagByte r.isRepeat ||| (flagByte r.isCond <<< 1)).toNat =
      (if r.isRepeat then 1 else 0) + (if r.isCond then 2 else 0) := by
    cases r.isRepeat <;> cases r.isCond <;> rfl
  have hext : (head.drop 0x08).take 8 = [0, 0, 0, 0, 0, 0, 0, 0] := rfl
  rw [hext]
  simp only [head, replyHead, headerBytes, List.append_assoc, List.cons_append, List.nil_append, byteAt_cons_of_pos,
    byteAt_append_of_ge, byteAt_cons_zero, numAt_append_of_ge, numAt_cons_of_pos, numAt_beBytes_append, numAt_beBytes_self,
    beBytes_length, Nat.reduceLeDiff, Nat.reduceSub, Nat.reducePow, hmod, hflags, and_self, true_and]
  exact ⟨rfl, trivial⟩

/-! ### Queued replies -/

section

variable {s u : State} {p : Port} {n : Nat} {r : Reply} {m m' : Management}

/-- A reply does not look at the management state beside the epoch. -/
theorem State.ReplyQueued.of_mgmt (he : m'.epoch = s.mgmt.epoch) (h : ({ s with mgmt := m' } : State).ReplyQueued u p n r m) :
    s.ReplyQueued u p n r m := by
  obtain ⟨hmem, d, hd, hu⟩ := h
  have hanswer : ({ s with mgmt := m' } : State).mgmtAnswer p ({ s with mgmt := m' } : State).mgmtClass =
      s.mgmtAnswer p s.mgmtClass := rfl
  refine ⟨fun a => ?_, _, rfl, ?_⟩
  · rw [hmem, ← he]
    rfl
  · rw [hu, hd, hanswer]
    split
    · rfl
    · simp only [State.releaseSlot, State.slotCount, State.countPort, State.modPort]
      split <;> rfl

/-- The management state may be set after the reply. -/
theorem State.ReplyQueued.setMgmt (h : s.ReplyQueued u p n r m) (m' : Management) :
    s.ReplyQueued { u with mgmt := m' } p n r m' := by
  obtain ⟨hmem, d, hd, hu⟩ := h
  refine ⟨hmem, d, hd, ?_⟩
  rw [hu]

end

/-! ### The end of an outstanding operation (R143, R144) -/

section

variable {s : State} {requester : Byte} {tag : W16} {kind : Byte} {status : Status} {d : Detail}

theorem State.fileCondition_new (h : ∀ c ∈ s.mgmt.conditions, c.requester ≠ requester) :
    s.fileCondition requester tag kind status d =
      { s with mgmt := { s.mgmt with conditions := s.mgmt.conditions ++ [⟨requester, tag, kind, status, d, 0⟩] } } := by
  rw [State.fileCondition, if_neg]
  · rfl
  · simpa [State.holdsCondition] using h

theorem State.fileCondition_held {before after : List Condition} {e : Condition}
    (hc : s.mgmt.conditions = before ++ e :: after) (he : e.requester = requester)
    (h : ∀ c ∈ before ++ after, c.requester ≠ requester) : s.fileCondition requester tag kind status d =
      { s with mgmt := { s.mgmt with conditions := before ++ { e with further := e.further + 1 } :: after } } := by
  have hother : ∀ l : List Condition, (∀ c ∈ l, c.requester ≠ requester) →
      l.map (fun c => if c.requester == requester then { c with further := c.further + 1 } else c) = l := fun l hl =>
    (List.map_congr_left fun c hcl => if_neg (by simpa using hl c hcl)).trans (List.map_id _)
  rw [State.fileCondition, if_pos (by simp [State.holdsCondition, hc, he]), hc, List.map_append, List.map_cons,
    hother before fun c hb => h c (List.mem_append_left _ hb), hother after fun c ha => h c (List.mem_append_right _ ha),
    if_pos (by simpa using he)]
  rfl

theorem State.recordAnswer_mgmt : (s.recordAnswer requester tag kind status).mgmt =
    { s.mgmt with answered := remember s.mgmt.answered ⟨requester, tag, kind, status⟩ } := by
  simp [State.recordAnswer, remember, List.drop_one]

theorem State.completeOp_slot (ingress : Port) {n : Nat} (hn : n < 384) (f : Option Detail) :
    s.ReplyQueued (s.completeOp requester tag ingress kind (some n) status f) ingress n
      (s.replyTo n requester tag kind status 0 [])
      { s.mgmt with answered := remember s.mgmt.answered ⟨requester, tag, kind, status⟩ } := by
  have hsent := State.sendReply_queued (s.recordAnswer requester tag kind status) ingress n
    (s.replyTo n requester tag kind status 0 []) hn (by simp [replyLength, State.replyTo, Config.slotBytes])
  rw [State.recordAnswer_mgmt] at hsent
  exact State.ReplyQueued.of_mgmt (m' := (s.recordAnswer requester tag kind status).mgmt) rfl hsent

end

/-- Settles O37: the three ends of an operation, and the reply's head and tail. -/
theorem outstandingOperationEnds : Obligations.OutstandingOperationEnds := by
  intro s requester tag ingress kind status
  refine ⟨fun n f hn => State.completeOp_slot ingress hn f, rfl, fun d h => State.fileCondition_new h,
    fun d before e after hc he h => State.fileCondition_held hc he h, fun r node epoch generation => ?_, rfl⟩
  intro bytes
  obtain ⟨h0, h1, h2, h3, h4, h6, h8, h10, h12, h13, h14, h15, h16, h18⟩ := replyHead_fields r node epoch generation
  have hlen := replyHead_length r node epoch generation
  have hbyte : ∀ i, i < 26 → byteAt bytes i = byteAt (replyHead r node epoch generation) i := fun i hi => by
    simp only [bytes, replyBytes_eq]
    exact byteAt_append_of_lt (hlen ▸ hi)
  have hnum : ∀ i k, i + k ≤ 26 → numAt bytes i k = numAt (replyHead r node epoch generation) i k := fun i k hi => by
    simp only [bytes, replyBytes_eq]
    exact numAt_append_of_le (hlen ▸ hi)
  refine ⟨replyBytes_length r node epoch generation, rfl, ?_⟩
  simp only [hbyte, hnum, Nat.reduceLT, Nat.reduceAdd, Nat.reduceLeDiff, h0, h1, h2, h3, h4, h6, h10, h12, h13, h14, h15,
    h16, h18, true_and]
  have hdrop : bytes.drop 26 = r.data ++ List.replicate (replyLength r - 26 - r.data.length) 0 := by
    simp only [bytes, replyBytes_eq]
    exact List.drop_left' hlen
  refine ⟨rfl, ?_, fun x hx => ?_⟩
  · rw [hdrop, List.take_left]
  · rw [← List.drop_drop, hdrop, List.drop_left] at hx
    exact List.eq_of_mem_replicate hx

/-! ### The take (R139) -/

theorem isRequestKind_iff (k : Byte) : isRequestKind k = true ↔ 1 ≤ k.toNat ∧ k.toNat ≤ 18 := by
  rw [isRequestKind, Bool.and_eq_true, decide_eq_true_eq, decide_eq_true_eq]

/-- The command of a kind byte is a request row that chooses it. -/
theorem requestRow_of_kind (k : Byte) : ∃ mine body, RequestRow (requestCommand k) mine body ∧ mine k = true := by
  have hkind : ∀ n : Byte, k.toNat = n.toNat → isKind n k = true := fun n h => decide_eq_true (BitVec.eq_of_toNat_eq h)
  unfold requestCommand
  split
  case h_19 =>
    refine ⟨_, _, .unknown, ?_⟩
    rw [Bool.not_eq_true', ← Bool.not_eq_true, isRequestKind_iff]
    rintro ⟨h1, h2⟩
    interval_cases k.toNat <;> simp_all
  all_goals exact ⟨_, _, by constructor, hkind _ (by assumption)⟩

section

variable {s s1 : State} {req : Request}

theorem State.formOk_iff : s1.formOk req = true ↔ 1 ≤ req.kind.toNat ∧ req.kind.toNat ≤ 18 ∧
    req.length = requiredLength req.kind.toNat (s1.param req 1).toNat := by
  rw [State.formOk, Bool.and_eq_true, isRequestKind_iff, decide_eq_true_eq, and_assoc]

/-- A taken request that fails the form test (R139). -/
theorem answers_badRequest {c : Instr} {mine : Byte → Bool} {body : Request → State → State} (hc : RequestRow c mine body)
    (ht : s.Takes s1 req false) (hs : req.slot < 384) (hm : mine req.kind = true) (hf : ¬ s1.formOk req = true) :
    Answers c s s1 req .badRequest 0 [] := by
  refine ⟨s1.answer req .badRequest 0 [], ?_, State.answer_queued _ _ _ _ _ hs (by decide)⟩
  rw [hc.exec_eq, State.runRequest_of_takes ht body hm, State.runTaken, if_neg Bool.false_ne_true, if_neg hf]
  rfl

/-- A request step with nothing to take (notes/assumptions/5.md). -/
theorem State.runRequest_idle (h : s.mgmt.engine = .stopped ∨ (s.mgmt.engine = .idle ∧ s.mgmt.requests = []))
    (mine : Byte → Bool) (body : Request → State → State) : State.runRequest mine body s = s := by
  unfold State.runRequest
  rcases h with h | ⟨h, hq⟩
  · have htake : s.take = s := by simp [State.take, h]
    simp [htake, h]
  · have htake : s.take = s := by simp [State.take, h, hq]
    simp [htake, h]

/-- A reply of the engine, after which it goes on in state `e` (R140, R141). -/
theorem State.engineReply_queued (t : State) {r : Reply} (hs : req.slot < 384) (hl : replyLength r ≤ Config.slotBytes)
    (e : Engine) : t.ReplyQueued ((t.engineReply req r).setEngine e) req.ingress req.slot r
      (t.mgmt.answeredTo req r.status e) := by
  have hmgmt : ((t.engineReply req r).setEngine e).mgmt = t.mgmt.answeredTo req r.status e := by
    have hsame : (t.engineReply req r).mgmt = (t.recordAnswer req.requester req.tag req.kind r.status).mgmt := by
      simp [State.engineReply]
    rw [State.setEngine, hsame, State.recordAnswer_mgmt]
    rfl
  have hsent := (State.sendReply_queued (t.recordAnswer req.requester req.tag req.kind r.status) req.ingress req.slot r hs
    hl).setMgmt (t.mgmt.answeredTo req r.status e)
  rw [← hmgmt] at hsent ⊢
  exact State.ReplyQueued.of_mgmt (m' := (t.recordAnswer req.requester req.tag req.kind r.status).mgmt) rfl hsent

/-- The delivery of a condition in the place of the request's execution (R145). -/
theorem State.deliverCondition_queued {e : Condition} (hs : req.slot < 384)
    (he : s1.mgmt.conditions.find? (fun c => c.requester == req.requester) = some e) :
    State.ReplyQueued (s1.setConditions (s1.mgmt.conditions.filter fun c => !(c.requester == req.requester)))
      (s1.deliverCondition req) req.ingress req.slot
      { s1.plainReply req .condition 0 (conditionData e) with isCond := true }
      ({ s1.mgmt with conditions := s1.mgmt.conditions.filter fun c => !(c.requester == req.requester) }.answeredTo req
        .condition .idle) := by
  have hdata : replyLength { s1.plainReply req .condition 0 (conditionData e) with isCond := true } ≤ Config.slotBytes := by
    have hdetail : (conditionData e).length ≤ 16 := by
      simp only [conditionData]
      cases e.detail <;> simp
    simp only [replyLength, State.plainReply, Config.slotBytes]
    omega
  have hreply := State.engineReply_queued (s1.setConditions (s1.mgmt.conditions.filter fun c =>
    !(c.requester == req.requester))) hs hdata .idle
  simp only [State.deliverCondition, he]
  exact hreply

end

/-- Settles O36, test by test. -/
theorem takeTestsComeBeforeExecution : Obligations.TakeTestsComeBeforeExecution := by
  intro s s1 req hs
  refine ⟨fun e ht he => ?_, fun ht hk => ?_, fun ht h1 h2 hlen => ?_, fun k count => ?_, State.formOk_iff, fun k h => ?_⟩
  · obtain ⟨mine, body, hrow, hm⟩ := requestRow_of_kind req.kind
    refine ⟨s1.deliverCondition req, ?_, State.deliverCondition_queued hs he⟩
    rw [hrow.exec_eq, State.runRequest_of_takes ht body hm]
    rfl
  · have hno : isRequestKind req.kind = false := by
      rw [← Bool.not_eq_true, isRequestKind_iff]
      omega
    refine answers_badRequest .unknown ht hs (by rw [hno]; rfl) fun hf => ?_
    have := State.formOk_iff.mp hf
    omega
  · obtain ⟨mine, body, hrow, hm⟩ := requestRow_of_kind req.kind
    exact answers_badRequest hrow ht hs hm fun hf => hlen (State.formOk_iff.mp hf).2.2
  · unfold requiredLength paramBytes
    split <;> simp_all [← Nat.add_assoc]
  · obtain ⟨mine, body, hrow, -⟩ := requestRow_of_kind k
    rw [hrow.exec_eq, State.runRequest_idle h]

/-! ### The intake (R137, R138) -/

theorem Engine.holds_iff (e : Engine) (r : Byte) (t : W16) :
    e.holds r t = true ↔ ∃ q h, e = .executing q h ∧ q.requester = r ∧ q.tag = t := by
  cases e <;> simp [Engine.holds]

/-- A request of the requester and tag is queued, executing or outstanding (R137). -/
theorem State.isPendingRequest_iff (s : State) (r : Byte) (t : W16) : s.isPendingRequest r t = true ↔
    (∃ q ∈ s.mgmt.requests, q.requester = r ∧ q.tag = t) ∨
    (∃ q h, s.mgmt.engine = .executing q h ∧ q.requester = r ∧ q.tag = t) ∨
    (∃ x o, s.mgmt.portControl.get x = some o ∧ o.requester = r ∧ o.tag = t) ∨
    (∃ o, s.gen.commit = some o ∧ o.requester = r ∧ o.tag = t) := by
  have hcontrol : (s.mgmt.portControl.toList.any fun o => o.any fun c => decide (c.requester = r) && decide (c.tag = t)) = true ↔
      ∃ x o, s.mgmt.portControl.get x = some o ∧ o.requester = r ∧ o.tag = t := by
    simp only [List.any_eq_true, Option.any_eq_true, Bool.and_eq_true, decide_eq_true_eq]
    constructor
    · rintro ⟨o, ho, c, hc, h⟩
      obtain ⟨x, rfl⟩ := Trio.exists_get_of_mem ho
      exact ⟨x, c, hc, h⟩
    · rintro ⟨x, o, ho, h⟩
      exact ⟨_, Trio.get_mem_toList _ x, o, ho, h⟩
  simp only [State.isPendingRequest, Bool.or_eq_true, hcontrol, Engine.holds_iff, List.any_eq_true, Option.any_eq_true,
    Bool.and_eq_true, decide_eq_true_eq, or_assoc]

/-- Settles O16: the intake's tests in order, each reply queued as it is built. -/
theorem intakeDecides : Obligations.IntakeDecides := by
  intro s p slot length req r hreq hs hr same waits
  subst hreq hr
  have hpending : s.isPendingRequest (s.requestIn p slot length).requester (s.requestIn p slot length).tag = true ↔ waits :=
    State.isPendingRequest_iff ..
  have hqueued : ∀ r : Reply, r.data = [] → s.ReplyQueued (s.sendReply p slot r) p slot r s.mgmt := fun r hr =>
    State.sendReply_queued s p slot r hs (by simp [replyLength, hr, Config.slotBytes])
  have hnone : (∀ a ∈ s.mgmt.answered, ¬ same a.requester a.tag) →
      s.answerOf (s.requestIn p slot length).requester (s.requestIn p slot length).tag = none := fun h => by
    rw [State.answerOf, List.find?_eq_none]
    exact fun a ha => by simpa [same] using h a ha
  refine ⟨fun hw => ?_, fun a hw ha => ?_, fun hw ha hfull => ?_, fun hw ha hroom => ?_⟩
  · rw [State.intake, if_pos (hpending.mpr hw)]
    exact hqueued _ rfl
  all_goals rw [State.intake, if_neg (mt hpending.mp hw)]
  · simp only [ha]
    exact hqueued _ rfl
  · have hplaces : Config.requestPlaces ≤ s.mgmt.requests.length := hfull
    simp only [hnone ha, if_pos hplaces]
    exact hqueued _ rfl
  · have hplaces : ¬ Config.requestPlaces ≤ s.mgmt.requests.length := Nat.not_le_of_lt hroom
    simp only [hnone ha, if_neg hplaces]
    rfl

/-! ### IDENTIFY and READ STATUS (R152, R153) -/

theorem commitBytes_length (o : Option Commit) : (commitBytes o).length = 8 := by
  rcases o with _ | c
  · rfl
  · simp only [commitBytes]
    cases c.target <;> simp

theorem commitBytes_some (c : Commit) : let bytes := commitBytes (some c)
    byteAt bytes 0 = 1 ∧ byteAt bytes 1 = (if c.target = .nextRound then 0 else 1) ∧
    numAt bytes 2 2 = (match c.target with | .nextRound => 0 | .atRound r => r.toNat) ∧
    byteAt bytes 4 = c.requester ∧ numAt bytes 5 2 = c.tag.toNat ∧ byteAt bytes 7 = flagByte c.early := by
  have hmod : ∀ x : W16, x.toNat % 256 ^ 2 = x.toNat := fun x => Nat.mod_eq_of_lt x.isLt
  cases ht : c.target <;>
    simp [commitBytes, ht, byteAt_cons_of_pos, byteAt_append_of_ge, byteAt_cons_zero, numAt_append_of_ge,
      numAt_cons_of_pos, numAt_beBytes_append, -Nat.reducePow, hmod]

theorem portControlBytes_some (o : PortControl) : let bytes := portControlBytes (some o)
    byteAt bytes 0 = o.requester ∧ numAt bytes 1 2 = o.tag.toNat ∧ byteAt bytes 3 = portOpCode o.op ∧
    byteAt bytes 4 = flagByte o.early := by
  have hmod : ∀ x : W16, x.toNat % 256 ^ 2 = x.toNat := fun x => Nat.mod_eq_of_lt x.isLt
  simp [portControlBytes, byteAt_cons_of_pos, byteAt_append_of_ge, byteAt_cons_zero,
    numAt_cons_of_pos, numAt_beBytes_append, -Nat.reducePow, hmod]

theorem portControlBytes_length (o : Option PortControl) : (portControlBytes o).length = 5 := by
  cases o <;> simp [portControlBytes]

theorem numAt_signed (n : Int) (k : Nat) : (((n % (256 ^ k : Nat)).toNat % 256 ^ k : Nat) : Int) = n % (256 ^ k : Nat) := by
  have hpos : (0 : Int) < (256 ^ k : Nat) := by positivity
  have h0 := Int.emod_nonneg n hpos.ne'
  have h1 := Int.emod_lt_of_pos n hpos
  rw [Nat.mod_eq_of_lt (by omega), Int.toNat_of_nonneg h0]

/-- READ STATUS byte for byte, to the right. -/
theorem State.statusData_eq (s : State) : s.statusData =
    portStateCode s.ports.A.state :: portStateCode s.ports.B.state :: portStateCode s.ports.L.state ::
    syncStateCode s.timer.sync :: BitVec.ofNat 8 s.timer.good :: (beBytes 4 s.positionNow ++ (beBytes 4 s.timer.effLength ++
    BitVec.ofNat 8 s.timer.index :: (beBytes 2 s.timer.round.toNat ++ (beBytes 4 s.timer.cycleCount.toNat ++
    (signedBytes 2 s.timer.trim ++ (signedBytes 4 s.timer.lastErr ++ (beBytes 2 s.gen.number.toNat ++
    (commitBytes s.gen.commit ++ (beBytes 2 s.store.free.length ++ (beBytes 2 s.descsFree ++ (s.depthBytes ++
    BitVec.ofNat 8 s.retention.records.length :: (beBytes 4 s.retention.overflow.toNat ++
    (portControlBytes s.mgmt.portControl.A ++ (portControlBytes s.mgmt.portControl.B ++
    (portControlBytes s.mgmt.portControl.L ++ [BitVec.ofNat 8 s.mgmt.conditions.length,
      BitVec.ofNat 8 s.mgmt.requests.length]))))))))))))))) := by
  simp only [State.statusData, Trio.toList, List.map_cons, List.map_nil, List.flatMap_cons, List.flatMap_nil,
    List.append_assoc, List.cons_append, List.nil_append, List.append_nil]

theorem State.depthBytes_length (s : State) : s.depthBytes.length = 12 := by
  simp [State.depthBytes, Trio.toList, Quad.toList]

theorem signedBytes_length (k : Nat) (n : Int) : (signedBytes k n).length = k := beBytes_length ..

theorem State.statusData_length (s : State) : s.statusData.length = 74 := by
  simp [State.statusData_eq, commitBytes_length, portControlBytes_length, State.depthBytes_length, signedBytes_length]

/-- The segments of READ STATUS that the part's slots and queues fill. -/
theorem State.statusData_segments (s : State) : (s.statusData.drop 0x1C).take 8 = commitBytes s.gen.commit ∧
    (s.statusData.drop 0x28).take 12 = s.depthBytes ∧
    ∀ p, (s.statusData.drop (0x39 + 5 * portBit p)).take 5 = portControlBytes (s.mgmt.portControl.get p) := by
  refine ⟨?_, ?_, fun p => ?_⟩
  · simp [State.statusData_eq, drop_append_of_ge, commitBytes_length, signedBytes_length]
  · simp [State.statusData_eq, drop_append_of_ge, commitBytes_length, signedBytes_length,
      State.depthBytes_length]
  · cases p <;>
      simp [State.statusData_eq, drop_append_of_ge, commitBytes_length, signedBytes_length,
        State.depthBytes_length, portControlBytes_length, portBit, Trio.get]

/-- The fields of READ STATUS that the part's counts and registers fill. -/
theorem State.statusData_scalars (s : State) :
    byteAt s.statusData 0x00 = portStateCode s.ports.A.state ∧ byteAt s.statusData 0x01 = portStateCode s.ports.B.state ∧
    byteAt s.statusData 0x02 = portStateCode s.ports.L.state ∧ byteAt s.statusData 0x03 = syncStateCode s.timer.sync ∧
    byteAt s.statusData 0x04 = BitVec.ofNat 8 s.timer.good ∧ numAt s.statusData 0x05 4 = s.positionNow % 256 ^ 4 ∧
    numAt s.statusData 0x09 4 = s.timer.effLength % 256 ^ 4 ∧ byteAt s.statusData 0x0D = BitVec.ofNat 8 s.timer.index ∧
    numAt s.statusData 0x0E 2 = s.timer.round.toNat % 256 ^ 2 ∧
    numAt s.statusData 0x10 4 = s.timer.cycleCount.toNat % 256 ^ 4 ∧
    numAt s.statusData 0x14 2 = (s.timer.trim % (256 ^ 2 : Nat)).toNat % 256 ^ 2 ∧
    numAt s.statusData 0x16 4 = (s.timer.lastErr % (256 ^ 4 : Nat)).toNat % 256 ^ 4 ∧
    numAt s.statusData 0x1A 2 = s.gen.number.toNat % 256 ^ 2 ∧ numAt s.statusData 0x24 2 = s.store.free.length % 256 ^ 2 ∧
    numAt s.statusData 0x26 2 = s.descsFree % 256 ^ 2 ∧
    byteAt s.statusData 0x34 = BitVec.ofNat 8 s.retention.records.length ∧
    numAt s.statusData 0x35 4 = s.retention.overflow.toNat % 256 ^ 4 ∧
    byteAt s.statusData 0x48 = BitVec.ofNat 8 s.mgmt.conditions.length ∧
    byteAt s.statusData 0x49 = BitVec.ofNat 8 s.mgmt.requests.length := by
  simp only [State.statusData_eq, byteAt_cons_of_pos, byteAt_append_of_ge, byteAt_cons_zero, numAt_append_of_ge,
    numAt_cons_of_pos, numAt_beBytes_append, beBytes_length, commitBytes_length, portControlBytes_length,
    State.depthBytes_length, signedBytes, Nat.reduceLeDiff, Nat.reduceSub, and_self]

/-- Settles O38: the reports are the bytes at their offsets. -/
theorem identifyAndReadStatusReport : Obligations.IdentifyAndReadStatusReport := by
  intro s s1 req hr
  refine ⟨fun hk => answers_of_body rfl hr (by rw [hk]; rfl) rfl (by simp), fun hk => ?_⟩
  have hlen := s1.statusData_length
  obtain ⟨hcommit, hdepth, hcontrol⟩ := s1.statusData_segments
  obtain ⟨hA, hB, hL, hsync, hgood, hpos, hlength, hindex, hround, hcycles, htrim, herr, hgen, hfree, hdescs, hrecords,
    hoverflow, hconds, hreqs⟩ := s1.statusData_scalars
  have hbyte : ∀ n, (BitVec.ofNat 8 n).toNat = n % 256 := fun n => BitVec.toNat_ofNat ..
  refine ⟨s1.statusData, answers_of_body rfl hr (by rw [hk]; rfl) rfl (by rw [hlen]; decide), ?_⟩
  generalize s1.statusData = data at *
  refine ⟨hlen, hA, hB, hL, hsync, by rw [hgood, hbyte], hpos, hlength, by rw [hindex, hbyte], hround.trans (Nat.mod_eq_of_lt s1.timer.round.isLt),
    hcycles.trans (Nat.mod_eq_of_lt s1.timer.cycleCount.isLt), by rw [htrim]; exact numAt_signed _ 2,
    by rw [herr]; exact numAt_signed _ 4, hgen.trans (Nat.mod_eq_of_lt s1.gen.number.isLt), fun hnone => ?_, fun c hc => ?_,
    hfree, hdescs.trans (Nat.mod_eq_of_lt ?_), fun c => ?_, by rw [hrecords, hbyte],
    hoverflow.trans (Nat.mod_eq_of_lt s1.retention.overflow.isLt), fun p => ⟨fun hnone => ?_, fun o ho => ?_⟩,
    by rw [hconds, hbyte], by rw [hreqs, hbyte]⟩
  · rw [hcommit, hnone]
    rfl
  · rw [hc] at hcommit
    obtain ⟨h0, h1, h2, h4, h5, h7⟩ := commitBytes_some c
    have hat : ∀ j, j < 8 → byteAt data (0x1C + j) = byteAt (commitBytes (some c)) j := fun j hj =>
      byteAt_of_segment hcommit hj
    have hnum : ∀ j k, j + k ≤ 8 → numAt data (0x1C + j) k = numAt (commitBytes (some c)) j k := fun j k hj =>
      numAt_of_segment hcommit hj
    exact ⟨(hat 0 (by decide)).trans h0, (hat 1 (by decide)).trans h1, (hnum 2 2 (by decide)).trans h2,
      (hat 4 (by decide)).trans h4, (hnum 5 2 (by decide)).trans h5, (hat 7 (by decide)).trans h7⟩
  · exact (Nat.sub_le ..).trans_lt (by decide)
  · have hclass : ∀ j, j < 12 → byteAt data (0x28 + j) = byteAt s1.depthBytes j := fun j hj =>
      byteAt_of_segment hdepth hj
    have hB : 0x2C + c.val = 0x28 + (4 + c.val) := by omega
    have hL : 0x30 + c.val = 0x28 + (8 + c.val) := by omega
    rw [hB, hL, hclass _ (by omega), hclass _ (by omega), hclass _ (by omega)]
    fin_cases c <;> exact ⟨hbyte _, hbyte _, hbyte _⟩
  · rw [hcontrol, hnone]
    rfl
  · have hp := hcontrol p
    rw [ho] at hp
    obtain ⟨h0, h1, h3, h4⟩ := portControlBytes_some o
    have hat : ∀ j, 0x39 + j + 5 * portBit p = 0x39 + 5 * portBit p + j := fun j => Nat.add_right_comm ..
    have hop : portOpCode o.op = if o.op = .enable then 0 else 1 := by cases o.op <;> rfl
    exact ⟨(byteAt_of_segment hp (by decide)).trans h0,
      (congrArg (numAt _ · 2) (hat 1)).trans ((numAt_of_segment hp (by decide)).trans h1),
      (congrArg (byteAt _) (hat 3)).trans ((byteAt_of_segment hp (by decide)).trans (h3.trans hop)),
      (congrArg (byteAt _) (hat 4)).trans ((byteAt_of_segment hp (by decide)).trans h4)⟩

end Sys2Proof.Machine
end

section
/-! The counters, read and cleared (O39), and the images of the tables (O40). -/

namespace Sys2Proof.Machine

open Sys2Proof

/-! ### Equal blocks one after another -/

/-- The block of an element among blocks of one length. -/
theorem segment_flatMap {α : Type} {f : α → List Byte} {n : Nat} (hf : ∀ x, (f x).length = n) {l : List α} {k : Nat} {x : α}
    (h : l[k]? = some x) : ((l.flatMap f).drop (n * k)).take n = f x := by
  induction l generalizing k with
  | nil => cases h
  | cons y l ih =>
    cases k with
    | zero =>
      obtain rfl : y = x := by simpa using h
      rw [Nat.mul_zero, List.drop_zero, List.flatMap_cons, List.take_left' (hf y)]
    | succ k =>
      rw [List.flatMap_cons, Nat.mul_succ, Nat.add_comm, ← List.drop_drop, List.drop_left' (hf y)]
      exact ih h

theorem length_flatMap_const {α : Type} {f : α → List Byte} {n : Nat} (hf : ∀ x, (f x).length = n) (l : List α) :
    (l.flatMap f).length = n * l.length := by
  induction l with
  | nil => rfl
  | cons y l ih => rw [List.flatMap_cons, List.length_append, hf, ih, List.length_cons, Nat.mul_succ, Nat.add_comm]

/-- Part of a segment. -/
theorem segment_of_segment {l seg : List Byte} {i j k n : Nat} (h : (l.drop i).take n = seg) (hk : j + k ≤ n) :
    (l.drop (i + j)).take k = (seg.drop j).take k := by
  rw [← h, List.drop_take, List.take_take, List.drop_drop, Nat.min_eq_left (by omega)]

/-! ### The counters of a stream and of a port (R16, R53) -/

theorem streamStateBytes_length (st : StreamState) : (streamStateBytes st).length = 40 := by
  unfold streamStateBytes streamCounterBytes
  cases st.stamp <;> cases st.expectation <;> simp

theorem portCounterBytes_length (c : PortCounters) : (portCounterBytes c).length = 40 := by
  simp [portCounterBytes]

theorem streamStateBytes_fields (st : StreamState) : let bytes := streamStateBytes st
    numAt bytes 0 4 = st.counters.matched.toNat ∧ numAt bytes 4 4 = st.counters.forwarded.toNat ∧
    numAt bytes 8 4 = st.counters.dropped.toNat ∧ numAt bytes 12 4 = st.counters.late.toNat ∧
    numAt bytes 16 4 = st.counters.overBudget.toNat ∧ numAt bytes 20 4 = st.counters.duplicates.toNat ∧
    numAt bytes 24 4 = st.counters.gaps.toNat ∧
    (st.stamp = none → (bytes.drop 28).take 8 = [0, 0, 0, 0, 0, 0, 0, 0]) ∧
    (∀ x, st.stamp = some x → byteAt bytes 28 = 1 ∧ numAt bytes 29 2 = x.round.toNat ∧
      byteAt bytes 31 = BitVec.ofNat 8 x.index ∧ numAt bytes 32 4 = x.position % 256 ^ 4) ∧
    numAt bytes 36 2 = st.budgetUsed % 256 ^ 2 ∧
    (bytes.drop 38).take 2 = (match st.expectation with | none => [0, 0] | some x => [1, x]) := by
  have hmod : ∀ x : W32, x.toNat % 256 ^ 4 = x.toNat := fun x => Nat.mod_eq_of_lt x.isLt
  have hmod' : ∀ x : W16, x.toNat % 256 ^ 2 = x.toNat := fun x => Nat.mod_eq_of_lt x.isLt
  intro bytes
  cases hs : st.stamp <;> cases he : st.expectation <;>
    simp [bytes, streamStateBytes, streamCounterBytes, hs, he, byteAt_cons_of_pos, byteAt_append_of_ge, byteAt_cons_zero,
      numAt_append_of_ge, numAt_cons_of_pos, numAt_beBytes_append, drop_append_of_ge, -Nat.reducePow, hmod, hmod']

theorem portCounterBytes_fields (c : PortCounters) : let bytes := portCounterBytes c
    numAt bytes 0 4 = c.received.toNat ∧ numAt bytes 4 4 = c.crcErrors.toNat ∧ numAt bytes 8 4 = c.lengthErrors.toNat ∧
    numAt bytes 12 4 = c.noBuffer.toNat ∧ numAt bytes 16 4 = c.unmatched.toNat ∧ numAt bytes 20 4 = c.sent.toNat ∧
    numAt bytes 24 4 = c.aborted.toNat ∧ numAt bytes 28 4 = c.foreignSync.toNat ∧
    numAt bytes 32 4 = c.syncReplaced.toNat ∧ numAt bytes 36 4 = c.mgmtLost.toNat := by
  have hmod : ∀ x : W32, x.toNat % 256 ^ 4 = x.toNat := fun x => Nat.mod_eq_of_lt x.isLt
  intro bytes
  simp [bytes, portCounterBytes, numAt_append_of_ge, numAt_beBytes_append, numAt_beBytes_self, -Nat.reducePow, hmod]

/-! ### Clearing (R17, R57) -/

section

variable {s : State}

/-- The state with the counters of the streams `first` to `first + count - 1` cleared. -/
abbrev State.streamsCleared (s : State) (first count : Nat) : State := { s with
  streams := s.streams.mapIdx fun j st =>
    if first ≤ j ∧ j < first + count then { st with counters := ⟨0, 0, 0, 0, 0, 0, 0⟩ } else st }

theorem State.clearStreams_eq {first count : Nat} (h : first + count ≤ 256) :
    s.clearStreams first count = s.streamsCleared first count := by
  induction count with
  | zero =>
    have hsame : (s.streams.mapIdx fun j st => if first ≤ j ∧ j < first + 0 then
        { st with counters := (⟨0, 0, 0, 0, 0, 0, 0⟩ : StreamCounters) } else st) = s.streams := by
      refine List.ext_getElem (by simp) fun j _ _ => ?_
      rw [List.getElem_mapIdx, if_neg (by omega)]
    rw [State.streamsCleared, hsame]
    rfl
  | succ n ih =>
    have hstep : s.clearStreams first (n + 1) = (s.clearStreams first n).clearStream (BitVec.ofNat 8 (first + n)) := by
      simp only [State.clearStreams, List.range_succ, List.foldl_append, List.foldl_cons, List.foldl_nil]
    have hindex : (BitVec.ofNat 8 (first + n)).toNat = first + n := by
      rw [BitVec.toNat_ofNat, Nat.mod_eq_of_lt (by omega)]
    rw [hstep, ih (by omega)]
    simp only [State.clearStream, State.countStream, State.modStream, State.streamsCleared, hindex]
    congr 1
    refine List.ext_getElem (by simp) fun j _ _ => ?_
    rw [List.getElem_modify, List.getElem_mapIdx, List.getElem_mapIdx]
    by_cases hj : first + n = j
    · rw [if_pos hj, if_neg (by omega), if_pos (by omega)]
      rfl
    · rw [if_neg hj]
      exact if_congr (by omega) rfl rfl

theorem State.clearPorts_eq : s.clearPorts = { s with ports :=
    ⟨{ s.ports.A with counters := ⟨0, 0, 0, 0, 0, 0, 0, 0, 0, 0⟩ },
      { s.ports.B with counters := ⟨0, 0, 0, 0, 0, 0, 0, 0, 0, 0⟩ },
      { s.ports.L with counters := ⟨0, 0, 0, 0, 0, 0, 0, 0, 0, 0⟩ }⟩ } := rfl

theorem State.streamCounterData_eq (first count : Nat) : s.streamCounterData first count =
    ((List.range count).map fun i => s.stream (BitVec.ofNat 8 (first + i))).flatMap streamStateBytes := by
  rw [List.flatMap_map]
  rfl

theorem State.streamCounterData_segment {first count k : Nat} {st : StreamState} (h : first + count ≤ 256) (hk : k < count)
    (hst : s.streams[first + k]? = some st) :
    ((s.streamCounterData first count).drop (40 * k)).take 40 = streamStateBytes st := by
  rw [State.streamCounterData_eq]
  refine segment_flatMap streamStateBytes_length ?_
  rw [List.getElem?_map, List.getElem?_range hk, Option.map_some, State.stream, BitVec.toNat_ofNat,
    Nat.mod_eq_of_lt (by omega), List.getD_eq_getElem?_getD, hst]
  rfl

end

/-- A flag that is neither 0 nor 1 (R154, R155). -/
theorem flag_refused_iff (b : Byte) : (b ≠ 0 ∧ b ≠ 1) ↔ 1 < b.toNat := by
  bv_omega

/-- Settles O39. -/
theorem countersAreReadAndCleared : Obligations.CountersAreReadAndCleared := by
  intro s s1 req hr p0 p1 p2 clearPorts clearStreams
  refine ⟨fun hk hbad => ?_, fun hk h1 h12 h256 hflag => ?_, fun hk hbad => ?_, fun hk hflag => ?_, fun hk hp => ?_, fun hk hp => ?_,
    fun hk hp => ?_, fun hk hbad => ?_⟩
  · refine answers_of_body rfl hr (by rw [hk]; rfl) ?_ (by decide)
    rw [State.runReadStreamCounters]
    split_ifs with hcount hsum hf
    iterate 3 rfl
    all_goals
      have hcount' : ¬ (p1.toNat < 1 ∨ 12 < p1.toNat) := hcount
      have hsum' : ¬ 256 < p0.toNat + p1.toNat := hsum
      have hf' : ¬ 1 < p2.toNat := mt (flag_refused_iff p2).mpr hf
      omega
  · have hlen : (s1.streamCounterData p0.toNat p1.toNat).length = 40 * p1.toNat := by
      rw [State.streamCounterData_eq, length_flatMap_const streamStateBytes_length, List.length_map, List.length_range]
    refine ⟨s1.streamCounterData p0.toNat p1.toNat, _, answers_of_body rfl hr (by rw [hk]; rfl) ?_ (by omega), hlen, rfl,
      fun k st hkc hst => ?_⟩
    · have hcount : ¬ (p1.toNat < 1 ∨ 12 < p1.toNat) := by omega
      have hsum : ¬ 256 < p0.toNat + p1.toNat := by omega
      have hf : ¬ (p2 ≠ 0 ∧ p2 ≠ 1) := fun h => Nat.not_le_of_lt ((flag_refused_iff p2).mp h) hflag
      refine (if_neg hcount).trans ((if_neg hsum).trans ((if_neg hf).trans ?_))
      rw [State.clearStreams_eq h256]
    · have hseg := State.streamCounterData_segment h256 hkc hst
      obtain ⟨h0, h4, h8, h12, h16, h20, h24, hnone, hsome, h36, h38⟩ := streamStateBytes_fields st
      have hnum : ∀ j n, j + n ≤ 40 → numAt (s1.streamCounterData p0.toNat p1.toNat) (40 * k + j) n =
          numAt (streamStateBytes st) j n := fun j n hj => numAt_of_segment hseg hj
      have hbyte : ∀ j, j < 40 → byteAt (s1.streamCounterData p0.toNat p1.toNat) (40 * k + j) =
          byteAt (streamStateBytes st) j := fun j hj => byteAt_of_segment hseg hj
      generalize s1.streamCounterData p0.toNat p1.toNat = data at *
      refine ⟨(hnum 0 4 (by decide)).trans h0, (hnum 4 4 (by decide)).trans h4, (hnum 8 4 (by decide)).trans h8,
        (hnum 12 4 (by decide)).trans h12, (hnum 16 4 (by decide)).trans h16, (hnum 20 4 (by decide)).trans h20,
        (hnum 24 4 (by decide)).trans h24, fun hs => ?_, fun x hx => ?_, (hnum 36 2 (by decide)).trans h36, ?_⟩
      · rw [segment_of_segment hseg (by decide), hnone hs]
      · obtain ⟨h28, h29, h31, h32⟩ := hsome x hx
        exact ⟨(hbyte 28 (by decide)).trans h28, (hnum 29 2 (by decide)).trans h29,
          by rw [hbyte 31 (by decide), h31, BitVec.toNat_ofNat], (hnum 32 4 (by decide)).trans h32⟩
      · exact (segment_of_segment hseg (by decide)).trans h38
  · refine answers_of_body rfl hr (by rw [hk]; rfl) ?_ (by decide)
    exact if_pos ((flag_refused_iff p0).mpr hbad)
  · have hok : ¬ (p0 ≠ 0 ∧ p0 ≠ 1) := fun h => Nat.not_le_of_lt ((flag_refused_iff p0).mp h) hflag
    have hlen : (s1.ports.toList.flatMap fun u => portCounterBytes u.counters).length = 120 := by
      simp [Trio.toList, portCounterBytes_length]
    refine ⟨_, answers_of_body rfl hr (by rw [hk]; rfl) (if_neg hok) (by rw [hlen]; decide), hlen, fun p => ?_⟩
    have hseg : ((s1.ports.toList.flatMap fun u => portCounterBytes u.counters).drop (40 * portBit p)).take 40 =
        portCounterBytes (s1.port p).counters :=
      segment_flatMap (f := fun u : PortUnit => portCounterBytes u.counters) (fun u => portCounterBytes_length _)
        (by cases p <;> rfl)
    have hnum : ∀ j, j + 4 ≤ 40 → numAt (s1.ports.toList.flatMap fun u => portCounterBytes u.counters) (40 * portBit p + j) 4 =
        numAt (portCounterBytes (s1.port p).counters) j 4 := fun j hj => numAt_of_segment hseg hj
    obtain ⟨h0, h4, h8, h12, h16, h20, h24, h28, h32, h36⟩ := portCounterBytes_fields (s1.port p).counters
    generalize (s1.ports.toList.flatMap fun u => portCounterBytes u.counters) = data at *
    exact ⟨(hnum 0 (by decide)).trans h0, (hnum 4 (by decide)).trans h4, (hnum 8 (by decide)).trans h8,
      (hnum 12 (by decide)).trans h12, (hnum 16 (by decide)).trans h16, (hnum 20 (by decide)).trans h20,
      (hnum 24 (by decide)).trans h24, (hnum 28 (by decide)).trans h28, (hnum 32 (by decide)).trans h32,
      (hnum 36 (by decide)).trans h36⟩
  · exact answers_of_body rfl hr (by rw [hk]; rfl) (if_pos hp) (by decide)
  all_goals refine answers_of_body rfl hr (by rw [hk]; rfl) ?_ (by decide)
  · exact (if_neg (by rw [show s1.param req 0 = 1 from hp]; decide)).trans (if_pos hp)
  · have h0 : ¬ s1.param req 0 = 0 := by rw [show s1.param req 0 = 2 from hp]; decide
    have h1 : ¬ s1.param req 0 = 1 := by rw [show s1.param req 0 = 2 from hp]; decide
    exact (if_neg h0).trans ((if_neg h1).trans (if_pos hp))
  · have h : ∀ b : Byte, b.toNat ≤ 2 → ¬ p0 = b := by
      rintro b hb rfl
      exact Nat.not_le_of_lt hbad hb
    exact (if_neg (h 0 (by decide))).trans ((if_neg (h 1 (by decide))).trans (if_neg (h 2 (by decide))))

/-! ### READ ENTRIES (R156) -/

theorem streamImage_length (e : StreamEntry) : (streamImage e).length = 32 := by
  simp [streamImage]

theorem windowImage_length (w : WindowEntry) : (windowImage w).length = 16 := by
  simp [windowImage]

theorem baseImage_length (b : BaseRecord) : (baseImage b).length = 64 := by
  simp [baseImage, Quad.toList]

theorem imagesOf_length_le {α : Type} {image : α → List Byte} {n : Nat} (h : ∀ x, (image x).length = n) (l : List α)
    (first count : Nat) : (imagesOf image l first count).length ≤ n * count := by
  rw [imagesOf, length_flatMap_const h]
  exact Nat.mul_le_mul_left _ (List.length_take_le ..)

theorem imagesOf_segment {α : Type} {image : α → List Byte} {n : Nat} (h : ∀ x, (image x).length = n) {l : List α}
    {first count k : Nat} {x : α} (hk : k < count) (hx : l[first + k]? = some x) :
    ((imagesOf image l first count).drop (n * k)).take n = image x :=
  segment_flatMap h (by rw [List.getElem?_take_of_lt hk, List.getElem?_drop, hx])

/-- The ranges of READ ENTRIES (R156). -/
abbrev EntriesInRange (table first count : Nat) : Prop :=
  (table = 0 ∧ 1 ≤ count ∧ count ≤ 15 ∧ first + count ≤ 256) ∨
    (table = 1 ∧ 1 ≤ count ∧ count ≤ 30 ∧ first + count ≤ 64) ∨ (table = 2 ∧ first = 0 ∧ count = 1)

/-- The bank that a bank code names. -/
abbrev State.bankOf (s : State) (code : Byte) : Bank := if code = 0 then s.gen.active else s.gen.shadow

/-- The images of a range of a table. -/
abbrev Bank.imagesIn (b : Bank) (table : Byte) (first count : Nat) : List Byte :=
  if table = 0 then imagesOf streamImage b.streams first count
  else if table = 1 then imagesOf windowImage b.windows first count else baseImage b.base

theorem State.runReadEntries_refused {s : State} {req : Request}
    (h : 1 < (s.param req 0).toNat ∨
      ¬ EntriesInRange (s.param req 1).toNat (s.param req 2).toNat (s.param req 3).toNat) :
    s.runReadEntries req = s.answerBare req .badParameter := by
  by_cases hbank : s.param req 0 ≠ 0 ∧ s.param req 0 ≠ 1
  · exact if_pos hbank
  have hout := h.resolve_left (mt (flag_refused_iff _).mpr hbank)
  refine (if_neg hbank).trans ?_
  by_cases h0 : s.param req 1 = 0
  · exact (if_pos h0).trans (if_neg fun hin => hout (.inl ⟨by rw [h0]; rfl, hin⟩))
  refine (if_neg h0).trans ?_
  by_cases h1 : s.param req 1 = 1
  · exact (if_pos h1).trans (if_neg fun hin => hout (.inr (.inl ⟨by rw [h1]; rfl, hin⟩)))
  refine (if_neg h1).trans ?_
  by_cases h2 : s.param req 1 = 2
  · exact (if_pos h2).trans (if_neg fun hin => hout (.inr (.inr ⟨by rw [h2]; rfl, hin⟩)))
  · exact if_neg h2

theorem State.runReadEntries_done {s : State} {req : Request} (hbank : (s.param req 0).toNat ≤ 1)
    (h : EntriesInRange (s.param req 1).toNat (s.param req 2).toNat (s.param req 3).toNat) :
    s.runReadEntries req = s.answer req .done 0
      ((s.bankOf (s.param req 0)).imagesIn (s.param req 1) (s.param req 2).toNat (s.param req 3).toNat) := by
  have hflag : ¬ (s.param req 0 ≠ 0 ∧ s.param req 0 ≠ 1) := mt (flag_refused_iff _).mp (by omega)
  rw [State.runReadEntries]
  generalize (s.param req 2).toNat = first at *
  generalize (s.param req 3).toNat = count at *
  rcases h with ⟨ht, h⟩ | ⟨ht, h⟩ | ⟨ht, h⟩
  · obtain ht : s.param req 1 = 0 := BitVec.eq_of_toNat_eq ht
    simp only [if_neg hflag, Bank.imagesIn, State.bankOf, ht, if_true, if_pos h]
  · obtain ht : s.param req 1 = 1 := BitVec.eq_of_toNat_eq ht
    have h10 : ¬ (1 : Byte) = 0 := by decide
    simp only [if_neg hflag, Bank.imagesIn, State.bankOf, ht, if_neg h10, if_true, if_pos h]
  · obtain ht : s.param req 1 = 2 := BitVec.eq_of_toNat_eq ht
    have h20 : ¬ (2 : Byte) = 0 := by decide
    have h21 : ¬ (2 : Byte) = 1 := by decide
    simp only [if_neg hflag, Bank.imagesIn, State.bankOf, ht, if_neg h20, if_neg h21, if_true, if_pos h]

theorem Bank.imagesIn_length_le {b : Bank} {table : Byte} {first count : Nat} (h : EntriesInRange table.toNat first count) :
    (b.imagesIn table first count).length ≤ 480 := by
  have hs := imagesOf_length_le streamImage_length b.streams first count
  have hw := imagesOf_length_le windowImage_length b.windows first count
  have hb := baseImage_length b.base
  rw [Bank.imagesIn]
  split_ifs with h0 h1
  · obtain ht : table.toNat = 0 := by rw [h0]; rfl
    omega
  · obtain ht : table.toNat = 1 := by rw [h1]; rfl
    omega
  · omega

/-- Settles O40. -/
theorem readEntriesReturnsImages : Obligations.ReadEntriesReturnsImages := by
  intro s s1 req hr hk first count inRange
  refine ⟨fun hbad => ?_, fun bank hbank hin => ?_⟩
  · exact answers_of_body rfl hr (by rw [hk]; rfl) (State.runReadEntries_refused hbad) (by decide)
  · have hcode : (s1.param req 0).toNat ≤ 1 ∧ s1.bankOf (s1.param req 0) = bank := by
      rcases hbank with ⟨hc, rfl⟩ | ⟨hc, rfl⟩ <;> rw [State.bankOf, hc] <;> exact ⟨by decide, rfl⟩
    obtain ⟨hle, rfl⟩ := hcode
    refine ⟨_, answers_of_body rfl hr (by rw [hk]; rfl) (State.runReadEntries_done hle hin)
      ((Bank.imagesIn_length_le hin).trans (by decide)), fun ht k e hkc he => ?_, fun ht k w hkc hw => ?_, fun ht => ?_⟩
    · rw [Bank.imagesIn, if_pos ht]
      exact imagesOf_segment streamImage_length hkc he
    · rw [Bank.imagesIn, if_neg (by rw [ht]; decide), if_pos ht]
      exact imagesOf_segment windowImage_length hkc hw
    · rw [Bank.imagesIn, if_neg (by rw [ht]; decide), if_neg (by rw [ht]; decide)]

end Sys2Proof.Machine
end

section
/-! Staging and copying (O41), COMMIT and CANCEL COMMIT (O42) and PORT CONTROL (O43). -/

namespace Sys2Proof.Machine

open Sys2Proof

/-! ### The encoding checks of the images, and the entries they are written over (R157, R170) -/

theorem State.images_getElem? {s : State} {req : Request} {size count k : Nat} (h : k < count) :
    (s.images req size count)[k]? = some (s.paramBlock req (2 + size * k) size) := by
  rw [State.images, List.getElem?_map, List.getElem?_range h, Option.map_some]

theorem State.images_getElem {s : State} {req : Request} {size count k : Nat} (h : k < (s.images req size count).length) :
    (s.images req size count)[k] = s.paramBlock req (2 + size * k) size := by
  simp [State.images]

theorem State.images_length {s : State} {req : Request} {size count : Nat} : (s.images req size count).length = count := by
  rw [State.images, List.length_map, List.length_range]

theorem State.mem_images {s : State} {req : Request} {size count : Nat} {bs : List Byte} :
    bs ∈ s.images req size count ↔ ∃ k < count, s.paramBlock req (2 + size * k) size = bs := by
  simp only [State.images, List.mem_map, List.mem_range]

/-- The first image that fails is named. -/
theorem State.firstBadImage_images {s : State} {req : Request} {ok : List Byte → Bool} {size count k : Nat} (hk : k < count)
    (hbefore : ∀ j, j < k → ok (s.paramBlock req (2 + size * j) size) = true)
    (hbad : ok (s.paramBlock req (2 + size * k) size) = false) : firstBadImage ok (s.images req size count) = some k := by
  have hlen := s.images_length (req := req) (size := size) (count := count)
  rw [firstBadImage, List.findIdx?_eq_some_iff_getElem]
  refine ⟨by omega, ?_, fun j hj => ?_⟩
  · rw [State.images_getElem, hbad]
    rfl
  · rw [State.images_getElem, hbefore j hj]
    decide

theorem State.firstBadImage_images_none {s : State} {req : Request} {ok : List Byte → Bool} {size count : Nat}
    (h : ∀ k, k < count → ok (s.paramBlock req (2 + size * k) size) = true) :
    firstBadImage ok (s.images req size count) = none := by
  rw [firstBadImage, List.findIdx?_eq_none_iff]
  intro bs hbs
  obtain ⟨k, hk, rfl⟩ := State.mem_images.mp hbs
  rw [h k hk]
  rfl

theorem writeEntries_append_singleton {α : Type} (entries new : List α) (first : Nat) (x : α) :
    writeEntries entries first (new ++ [x]) = (writeEntries entries first new).set (first + new.length) x := by
  simp [writeEntries, List.zipIdx_append]

theorem writeEntries_length {α : Type} (entries new : List α) (first : Nat) :
    (writeEntries entries first new).length = entries.length := by
  induction new using List.reverseRecOn with
  | nil => rfl
  | append_singleton new x ih => rw [writeEntries_append_singleton, List.length_set, ih]

theorem writeEntries_getElem? {α : Type} (entries new : List α) (first j : Nat) (hj : j < entries.length) :
    (writeEntries entries first new)[j]? =
      if first ≤ j ∧ j < first + new.length then new[j - first]? else entries[j]? := by
  induction new using List.reverseRecOn with
  | nil => exact (if_neg (by simp)).symm
  | append_singleton new x ih =>
    rw [writeEntries_append_singleton, List.getElem?_set, ih, writeEntries_length, List.length_append, List.length_singleton]
    by_cases hlast : first + new.length = j
    · subst hlast
      simp [hj]
    · rw [if_neg hlast]
      by_cases hin : first ≤ j ∧ j < first + new.length
      · rw [if_pos hin, if_pos (by omega), List.getElem?_append_left (by omega)]
      · rw [if_neg hin, if_neg (by omega)]

/-- The entries of the images stand in their range, and the others as they were. -/
theorem State.writeEntries_images {α : Type} {s : State} {req : Request} {read : List Byte → α} {entries : List α}
    {first size count j : Nat} (hj : j < entries.length) :
    (writeEntries entries first ((s.images req size count).map read))[j]? =
      if first ≤ j ∧ j < first + count then some (read (s.paramBlock req (2 + size * (j - first)) size))
      else entries[j]? := by
  rw [writeEntries_getElem? _ _ _ _ hj, List.length_map, State.images_length]
  refine if_ctx_congr Iff.rfl (fun hin => ?_) fun _ => rfl
  rw [List.getElem?_map, State.images_getElem? (by omega), Option.map_some]

/-- Settles O41. -/
theorem stagingWritesTheShadowWhole : Obligations.StagingWritesTheShadowWhole := by
  intro s s1 req hr first count image shadow
  refine ⟨fun hk hbad => ?_, fun hk hbad => ?_, fun hp => ⟨fun hk h1 hn hsum => ?_, fun hk h1 hn hsum => ?_, fun hk => ?_,
    fun hk => ?_⟩, fun hc => ?_⟩
  · exact answers_of_body rfl hr (by rw [hk]; rfl) (if_pos (by omega)) (by decide)
  · exact answers_of_body rfl hr (by rw [hk]; rfl) (if_pos (by omega)) (by decide)
  · exact answers_of_body rfl hr (by rw [hk]; rfl) ((if_neg (by omega)).trans (if_pos hp)) (by decide)
  · exact answers_of_body rfl hr (by rw [hk]; rfl) ((if_neg (by omega)).trans (if_pos hp)) (by decide)
  · exact answers_of_body rfl hr (by rw [hk]; rfl) (if_pos hp) (by decide)
  · exact answers_of_body rfl hr (by rw [hk]; rfl) (if_pos hp) (by decide)
  · have hidle : ¬ s1.gen.commit.isSome = true := by rw [hc]; decide
    refine ⟨fun hk h1 hn hsum => ⟨fun k hkc hbefore hbad => ?_, fun hok => ?_⟩,
      fun hk h1 hn hsum => ⟨fun k hkc hbefore hbad => ?_, fun hok => ?_⟩, fun hk hbad => ?_, fun hk hok => ?_, fun hk => ?_⟩
    · refine answers_of_body rfl hr (by rw [hk]; rfl) ((if_neg (by omega)).trans ((if_neg hidle).trans ?_)) (by decide)
      rw [State.firstBadImage_images hkc hbefore hbad]
    · refine ⟨_, answers_of_body rfl hr (by rw [hk]; rfl) ((if_neg (by omega)).trans ((if_neg hidle).trans ?_)) (by decide),
        writeEntries_length _ _ _, fun j hj => State.writeEntries_images ?_⟩
      · rw [State.firstBadImage_images_none hok]
        rfl
      · rwa [writeEntries_length] at hj
    · refine answers_of_body rfl hr (by rw [hk]; rfl) ((if_neg (by omega)).trans ((if_neg hidle).trans ?_)) (by decide)
      rw [State.firstBadImage_images hkc hbefore hbad]
    · refine ⟨_, answers_of_body rfl hr (by rw [hk]; rfl) ((if_neg (by omega)).trans ((if_neg hidle).trans ?_)) (by decide),
        writeEntries_length _ _ _, fun j hj => State.writeEntries_images ?_⟩
      · rw [State.firstBadImage_images_none hok]
        rfl
      · rwa [writeEntries_length] at hj
    · exact answers_of_body rfl hr (by rw [hk]; rfl) ((if_neg hidle).trans (if_neg (by rw [hbad]; decide))) (by decide)
    · exact answers_of_body rfl hr (by rw [hk]; rfl) ((if_neg hidle).trans (if_pos hok)) (by decide)
    · exact answers_of_body rfl hr (by rw [hk]; rfl) (if_neg hidle) (by decide)

/-! ### Requests that wait for their answer (R142) -/

/-- A request command whose rule leaves the answer to later. -/
theorem exec_of_body {s s1 u : State} {req : Request} {c : Instr} {mine : Byte → Bool} {body : Request → State → State}
    (hc : exec c s = .next (State.runRequest mine body s)) (hr : s.Runs s1 req) (hm : mine req.kind = true)
    (hb : body req s1 = u) : exec c s = .next u.settle := by
  obtain ⟨ht, hf, -⟩ := hr
  rw [hc, State.runRequest_of_takes ht body hm]
  simp [State.runTaken, hf, hb]

/-- Early acknowledgement is granted when it is asked for and an early operation is free (R142). -/
theorem early_iff (s : State) (req : Request) : (req.early && s.earlyGranted) = true ↔
    req.flags.getLsbD 0 = true ∧ s.mgmt.conditions.length + s.earlyOps < 4 := by
  rw [Bool.and_eq_true, Request.early, State.earlyGranted, decide_eq_true_eq]
  rfl

theorem early_eq_false_iff (s : State) (req : Request) : (req.early && s.earlyGranted) = false ↔
    ¬ (req.flags.getLsbD 0 = true ∧ s.mgmt.conditions.length + s.earlyOps < 4) := by
  rw [← early_iff, Bool.not_eq_true]

/-! ### COMMIT and CANCEL COMMIT (R124, R129, R158) -/

section

variable {s : State} {req : Request} {target : Target}

/-- A pending commit for the request `req`. -/
abbrev State.entered (s : State) (req : Request) (target : Target) (early : Bool) (slot : Option Nat) : State :=
  s.setCommit (some ⟨req.requester, req.tag, req.ingress, early, target, slot⟩)

theorem State.acceptCommit_early (h : (req.early && s.earlyGranted) = true) :
    s.acceptCommit req target = (s.entered req target true none).answerBare req .accepted := by
  simp only [State.acceptCommit, h, if_true]

theorem State.acceptCommit_kept (h : (req.early && s.earlyGranted) = false) :
    s.acceptCommit req target = (s.entered req target false (some req.slot)).setEngine .idle := by
  simp only [State.acceptCommit, h, if_neg Bool.false_ne_true]

theorem State.decideCommit_busy (h : s.gen.commit.isSome = true) : s.decideCommit req target = s.answerBare req .refusedBusy :=
  if_pos h

theorem State.decideCommit_tooLate (hc : s.gen.commit = none) (h : s.tooLate target = true) :
    s.decideCommit req target = s.answerBare req .tooLate :=
  (if_neg (by rw [hc]; decide)).trans (if_pos h)

theorem State.decideCommit_invalid {f : Invalid} (hc : s.gen.commit = none) (hl : s.tooLate target = false)
    (hf : s.gen.shadow.validate = some f) :
    s.decideCommit req target = s.answer req .invalidTables f.index [f.table, BitVec.ofNat 8 f.check] := by
  simp [State.decideCommit, hc, hl, hf]

theorem State.decideCommit_valid (hc : s.gen.commit = none) (hl : s.tooLate target = false)
    (hv : s.gen.shadow.validate = none) : s.decideCommit req target = s.acceptCommit req target := by
  simp [State.decideCommit, hc, hl, hv]

/-- A round is too late unless it lies 1 to 32,767 rounds ahead (R124). -/
theorem State.tooLate_atRound_iff (r : W16) : s.tooLate (.atRound r) = true ↔
    ¬ (1 ≤ (r.toNat + 65536 - s.timer.round.toNat) % 65536 ∧ (r.toNat + 65536 - s.timer.round.toNat) % 65536 ≤ 32767) := by
  rw [State.tooLate, roundAhead, roundDistance_eq, Bool.not_eq_true', Bool.and_eq_false_iff, decide_eq_false_iff_not,
    decide_eq_false_iff_not, not_and_or]

end

/-- Settles O42. -/
theorem commitIsDecidedInOrder : Obligations.CommitIsDecidedInOrder := by
  intro s s1 req target r hr hround ahead granted entered
  refine ⟨fun hk hbad => ?_, fun hk hkind => ?_, fun hk hc => ?_, fun hk c hc => ?_⟩
  · have hno : ∀ b : Byte, b.toNat ≤ 1 → ¬ s1.param req 0 = b := by
      rintro b hb rfl
      omega
    exact answers_of_body rfl hr (by rw [hk]; rfl) ((if_neg (hno 0 (by decide))).trans (if_neg (hno 1 (by decide)))) (by decide)
  · have hmine : isKind 0x0A req.kind = true := by rw [hk]; rfl
    have hrun : s1.runCommit req = s1.decideCommit req target := by
      rcases hkind with ⟨hp, rfl⟩ | ⟨hp, rfl⟩
      · exact if_pos hp
      · rw [hround]
        exact (if_neg (by rw [hp]; decide)).trans (if_pos hp)
    refine ⟨fun hc => ?_, fun hc ht hlate => ?_, fun hc hin => ?_⟩
    · exact answers_of_body rfl hr hmine (hrun.trans (State.decideCommit_busy hc)) (by decide)
    · have htoo : s1.tooLate target = true := by
        rw [ht, State.tooLate_atRound_iff]
        omega
      exact answers_of_body rfl hr hmine (hrun.trans (State.decideCommit_tooLate hc htoo)) (by decide)
    · have hnot : s1.tooLate target = false := by
        rcases hkind with ⟨-, rfl⟩ | ⟨-, rfl⟩
        · rfl
        · rw [Bool.eq_false_iff, Ne, State.tooLate_atRound_iff, not_not]
          exact hin.resolve_left Target.noConfusion
      refine ⟨fun f hf => ?_, fun hv hg => ?_, fun hv hg => ?_⟩
      · exact answers_of_body rfl hr hmine (hrun.trans (State.decideCommit_invalid hc hnot hf)) (Nat.le_of_ble_eq_true rfl)
      · exact answers_of_body rfl hr hmine (hrun.trans ((State.decideCommit_valid hc hnot hv).trans
          (State.acceptCommit_early ((early_iff s1 req).mpr hg)))) (by decide)
      · exact exec_of_body rfl hr hmine (hrun.trans ((State.decideCommit_valid hc hnot hv).trans
          (State.acceptCommit_kept ((early_eq_false_iff s1 req).mpr hg))))
  · refine answers_of_body rfl hr (by rw [hk]; rfl) ?_ (by decide)
    simp only [State.runCancel, hc]
    rfl
  · refine answers_of_body rfl hr (by rw [hk]; rfl) ?_ (by decide)
    simp only [State.runCancel, hc, State.completeCommit_of_some hc]
    rfl

/-! ### PORT CONTROL (R13, R14, R159) -/

theorem portOfCode_eq_none {b : Byte} (h : 2 < b.toNat) : portOfCode b = none := by
  have hno : ∀ c : Byte, c.toNat ≤ 2 → ¬ b = c := by
    rintro c hc rfl
    omega
  rw [portOfCode, if_neg (hno 0 (by decide)), if_neg (hno 1 (by decide)), if_neg (hno 2 (by decide))]

theorem portOpOfCode_eq_none {b : Byte} (h : 1 < b.toNat) : portOpOfCode b = none := by
  have hno : ∀ c : Byte, c.toNat ≤ 1 → ¬ b = c := by
    rintro c hc rfl
    omega
  rw [portOpOfCode, if_neg (hno 0 (by decide)), if_neg (hno 1 (by decide))]

section

variable {s : State} {req : Request} {p : Port} {op : PortOp}

theorem State.runPortControl_refused (h : 2 < (s.param req 0).toNat ∨ 1 < (s.param req 1).toNat) :
    s.runPortControl req = s.answerBare req .badParameter := by
  unfold State.runPortControl
  rcases h with h | h
  · rw [portOfCode_eq_none h]
  · rw [portOpOfCode_eq_none h]
    cases portOfCode (s.param req 0) <;> rfl

theorem State.runPortControl_listed (hp : s.param req 0 = portCode p)
    (hop : s.param req 1 = (match op with | .enable => 0 | .disable => 1)) :
    s.runPortControl req = s.decidePortControl req p op := by
  have hcode : portOpOfCode (s.param req 1) = some op := by
    rw [hop]
    cases op <;> rfl
  simp only [State.runPortControl, hp, portOfCode_portCode, hcode]

theorem State.decidePortControl_busy (h : (s.mgmt.portControl.get p).isSome = true) :
    s.decidePortControl req p op = s.answerBare req .refusedBusy := if_pos h

theorem State.decidePortControl_done {u : State} (h : s.mgmt.portControl.get p = none) (hd : s.controlPort p op = .done u) :
    s.decidePortControl req p op = u.answerBare req .done := by
  simp [State.decidePortControl, h, hd]

theorem State.decidePortControl_waits {u : State} (h : s.mgmt.portControl.get p = none) (hd : s.controlPort p op = .waits u) :
    s.decidePortControl req p op = u.waitPortControl req p op (req.early && s.earlyGranted) := by
  simp [State.decidePortControl, h, hd]

theorem State.waitPortControl_early : s.waitPortControl req p op true =
    (s.setPortControl p (some ⟨req.requester, req.tag, req.ingress, true, op, none⟩)).answerBare req .accepted := by
  simp only [State.waitPortControl, if_true]

theorem State.waitPortControl_kept : s.waitPortControl req p op false =
    (s.setPortControl p (some ⟨req.requester, req.tag, req.ingress, false, op, some req.slot⟩)).setEngine .idle := by
  simp only [State.waitPortControl, if_neg Bool.false_ne_true]

/-- A DISABLE of a port that is not UP ends at once. -/
theorem State.disablePort_resting (h : (s.port p).state = .qualifying ∨ (s.port p).state = .down) : s.disablePort p =
    .done ((s.modPort p fun u => { u with good := 0, bad := 0, state := .disabled }).noticeEvent .portState) := by
  rcases h with h | h <;> simp only [State.disablePort, h, State.changePort, State.modPort_modPort]

theorem State.disablePort_quiet (h : (s.port p).state = .up) (htx : (s.port p).tx = none) :
    s.disablePort p = .done ((s.abandonReception p).shutPort p) := by
  simp [State.disablePort, h, htx]

theorem State.disablePort_sending (h : (s.port p).state = .up) (htx : (s.port p).tx ≠ none) : s.disablePort p =
    .waits (((s.abandonReception p).modPort p fun u => { u with good := 0, bad := 0, state := .disabling }).noticeEvent
      .portState) := by
  have hsome : ¬ (s.port p).tx.isNone = true := by simpa using htx
  simp only [State.disablePort, h, if_neg hsome, State.changePort, State.modPort_modPort]

theorem State.enablePort_disabled (h : (s.port p).state = .disabled) : s.enablePort p =
    .waits ((s.modPort p fun u => { u with good := 0, bad := 0, qualCount := some 0, state := .qualifying }).noticeEvent
      .portState) := by
  simp only [State.enablePort, h, State.changePort, State.modPort_modPort]

/-- Shutting a port whose reception is abandoned: the queues emptied, the reception's slot released, then the disposals. -/
theorem State.shutPort_abandonReception : (s.abandonReception p).shutPort p =
    ((((s.emptied p).modPort p fun u => ({ u with rx := none } : PortUnit).shut).releaseSlot?
      ((s.port p).rx.bind Reception.slot)).disposeEach p (s.stranded p)).noticeEvent .portState := by
  have hqueues : (s.abandonReception p).queues = s.queues := by simp
  have hstranded : (s.abandonReception p).stranded p = s.stranded p := by
    simp only [State.stranded, State.waiting, State.egress, hqueues]
  rw [State.shutPort_eq, hstranded, State.emptied, hqueues, State.abandonReception_eq_releaseSlot?,
    ← State.releaseSlot?_setQueues, ← State.releaseSlot?_modPort]
  exact congrArg (fun t : State => ((t.releaseSlot? _).disposeEach p _).noticeEvent .portState)
    (State.modPort_modPort (s.emptied p) p (fun u => { u with rx := none }) PortUnit.shut)

end

/-- Settles O43. -/
theorem portControlActsByThePortsState : Obligations.PortControlActsByThePortsState := by
  intro s s1 req p op hr hk listed state granted waits
  have hmine : isKind 0x0C req.kind = true := by rw [hk]; rfl
  have hwaits : ∀ u : State, s1.runPortControl req = u.waitPortControl req p op (req.early && s1.earlyGranted) → waits u := by
    refine fun u hu => ⟨fun hg => ?_, fun hg => ?_⟩
    · rw [(early_iff s1 req).mpr hg] at hu
      exact answers_of_body rfl hr hmine (hu.trans State.waitPortControl_early) (by decide)
    · rw [(early_eq_false_iff s1 req).mpr hg] at hu
      exact exec_of_body rfl hr hmine (hu.trans State.waitPortControl_kept)
  refine ⟨fun hbad => ?_, fun ⟨hp, hop⟩ hbusy => ?_, fun ⟨hp, hop⟩ hfree => ?_⟩
  · exact answers_of_body rfl hr hmine (State.runPortControl_refused hbad) (by decide)
  · exact answers_of_body rfl hr hmine ((State.runPortControl_listed hp hop).trans (State.decidePortControl_busy hbusy)) (by decide)
  have hrun := State.runPortControl_listed hp hop
  have hdone : ∀ u : State, s1.controlPort p op = .done u → Answers .portControl s u req .done 0 [] := fun u hu =>
    answers_of_body rfl hr hmine (hrun.trans (State.decidePortControl_done hfree hu)) (by decide)
  have hlater : ∀ u : State, s1.controlPort p op = .waits u → waits u := fun u hu =>
    hwaits u (hrun.trans (State.decidePortControl_waits hfree hu))
  refine ⟨?_, ?_, ?_, ?_, ?_, ?_⟩
  · rintro rfl hstate
    refine hdone _ ?_
    rcases hstate with h | h | h <;> simp only [State.controlPort, State.enablePort, show (s1.port p).state = _ from h]
  · rintro rfl hstate
    refine hdone _ ?_
    simp only [State.controlPort, State.disablePort, show (s1.port p).state = _ from hstate]
  · rintro rfl hstate
    exact hdone _ (State.disablePort_resting hstate)
  · rintro rfl hstate htx
    let ended := (s1.emptied p).modPort p (fun u => ({ u with rx := none } : PortUnit).shut) |>.releaseSlot?
      ((s1.port p).rx.bind Reception.slot)
    let v := ended.disposeEach p (s1.stranded p)
    have hall := hdone _ (State.disablePort_quiet hstate htx)
    rw [State.shutPort_abandonReception] at hall
    have hdisposed : ended.Disposed v p (s1.stranded p) := State.dispose_disposed p (s1.stranded p) ended
    obtain ⟨htimer, hgen, hgates, -, hmem, -, -, hqueues, hmgmt, hother, hport, -, -⟩ := hdisposed.facts
    have hunit : ended.port p = ({ s1.port p with rx := none } : PortUnit).shut := by
      simp [ended, State.emptied, State.setQueues, State.port]
    rw [hunit] at hport
    refine ⟨v, v.noticeEvent .portState, hall, hdisposed, rfl, ?_, ?_, ?_, ?_, ?_, fun c => ?_, fun q hq => ⟨?_, fun c => ?_⟩,
      ?_, ?_, ?_, ?_, ?_⟩
    iterate 5 simp [hport, PortUnit.shut]
    · simp [State.egress, hqueues, ended]
      exact Quad.get_all [] c
    · rw [(State.noticeEvent_views _ _).1, hother q hq, (State.releaseSlot?_views _ _).1]
      exact Trio.get_set_other _ _ hq
    · simp [State.egress, hqueues, ended, Trio.get_set_other _ _ hq]
    · simp [htimer, ended, State.emptied, State.setQueues]
    · simp [hgen, ended, State.emptied, State.setQueues]
    · simp [hgates, ended, State.emptied, State.setQueues]
    · simp [hmem, ended, State.emptied, State.setQueues]
    · rw [State.mgmt_noticeEvent, hmgmt]
      simp [ended, State.emptied, State.setQueues]
  · rintro rfl hstate htx
    exact hlater _ (State.disablePort_sending hstate htx)
  · rintro rfl hstate
    exact hlater _ (State.enablePort_disabled hstate)

end Sys2Proof.Machine
end

section
/-! QUEUE RESET (O47), DEVICE RESET (O48) and REQUEUE RETAINED (O45). -/

namespace Sys2Proof.Machine

open Sys2Proof

/-! ### QUEUE RESET (R75, R118, R162) -/

theorem Quad.eq_of_get {α : Type} {q : Quad α} {a b c d : α} (h0 : q.get 0 = a) (h1 : q.get 1 = b) (h2 : q.get 2 = c)
    (h3 : q.get 3 = d) : q = ⟨a, b, c, d⟩ := by
  subst h0 h1 h2 h3
  rfl

theorem Trio.eq_of_get {α : Type} {t : Trio α} {a b c : α} (hA : t.get .A = a) (hB : t.get .B = b) (hL : t.get .L = c) :
    t = ⟨a, b, c⟩ := by
  subst hA hB hL
  rfl

section

variable {s : State}

/-- A discard empties its queue and changes, beside it, the frame store alone. -/
theorem State.discardQueue_eq (p : Port) (c : Cls) : State.discardQueue p s c =
    { s.setEgress p c [] with store := (State.discardQueue p s c).store } :=
  State.releaseAll_eq Desc.slot (s.egress p c) (s.setEgress p c [])

theorem State.discardQueue_released (p : Port) (c : Cls) :
    s.Released (State.discardQueue p s c) ((s.egress p c).map Desc.slot) :=
  (State.releaseAll_released Desc.slot (s.egress p c) (s.setEgress p c [])).of_store rfl rfl

theorem State.egress_discardQueue (p q : Port) (c e : Cls) :
    (State.discardQueue p s c).egress q e = if q = p ∧ e = c then [] else s.egress q e := by
  rw [State.discardQueue_eq]
  exact State.egress_setEgress s p q c e []

/-- The discards of some queues, one after another. -/
def State.discardAll (s : State) (places : List (Port × Cls)) : State :=
  places.foldl (fun s x => State.discardQueue x.1 s x.2) s

/-- Discards of different queues empty them, release the slots queue after queue, and change nothing else. -/
theorem State.discardAll_spec {places : List (Port × Cls)} (hnodup : places.Nodup) (s : State) :
    s.Released (s.discardAll places) (places.flatMap fun x => (s.egress x.1 x.2).map Desc.slot) ∧
    (∀ x ∈ places, (s.discardAll places).egress x.1 x.2 = []) ∧
    (∀ p c, (p, c) ∉ places → (s.discardAll places).egress p c = s.egress p c) ∧
    s.discardAll places = { s with queues := (s.discardAll places).queues, store := (s.discardAll places).store } := by
  induction places generalizing s with
  | nil => exact ⟨State.Released.refl s, by simp, fun _ _ _ => rfl, rfl⟩
  | cons x places ih =>
    obtain ⟨hx, hnodup⟩ := List.nodup_cons.mp hnodup
    obtain ⟨hrel, hempty, hother, heq⟩ := ih hnodup (State.discardQueue x.1 s x.2)
    have hkept : ∀ p c, (p, c) ≠ x → (State.discardQueue x.1 s x.2).egress p c = s.egress p c := fun p c hne => by
      rw [State.egress_discardQueue, if_neg fun ⟨hp, hc⟩ => hne (Prod.ext hp hc)]
    have hslots : (places.flatMap fun y => ((State.discardQueue x.1 s x.2).egress y.1 y.2).map Desc.slot) =
        places.flatMap fun y => (s.egress y.1 y.2).map Desc.slot :=
      List.flatMap_congr fun y hy => by rw [hkept y.1 y.2 fun h => hx (h ▸ hy)]
    rw [hslots] at hrel
    refine ⟨(s.discardQueue_released x.1 x.2).append hrel, ?_, fun p c hpc => ?_, ?_⟩
    · rintro y (_ | ⟨_, hy⟩)
      · exact (hother x.1 x.2 hx).trans ((State.egress_discardQueue ..).trans (if_pos ⟨rfl, rfl⟩))
      · exact hempty y hy
    · rw [List.mem_cons, not_or] at hpc
      exact (hother p c hpc.2).trans (hkept p c hpc.1)
    · have hkeep : ∀ (t : State) (q : Trio (Quad (List Desc))) (st : FrameStore),
          t = { s.setEgress x.1 x.2 [] with store := t.store } →
          ({ t with queues := q, store := st } : State) = { s with queues := q, store := st } := by
        intro t q st ht
        rw [ht]
        rfl
      exact heq.trans (hkeep _ _ _ (State.discardQueue_eq ..))

/-- The twelve queues in port and class order. -/
def queuePlaces : List (Port × Cls) := allPorts.flatMap fun p => allClasses.map fun c => (p, c)

theorem State.discardQueues_eq_discardAll : s.discardQueues = s.discardAll queuePlaces := by
  rw [State.discardAll, queuePlaces, List.foldl_flatMap]
  rfl

theorem mem_queuePlaces (p : Port) (c : Cls) : (p, c) ∈ queuePlaces := by
  cases p <;> fin_cases c <;> decide

theorem State.discardQueues_eq : s.discardQueues = { s with
    queues := ⟨⟨[], [], [], []⟩, ⟨[], [], [], []⟩, ⟨[], [], [], []⟩⟩, store := s.discardQueues.store } := by
  obtain ⟨-, hempty, -, heq⟩ := State.discardAll_spec (places := queuePlaces) (by decide) s
  rw [← State.discardQueues_eq_discardAll] at hempty heq
  generalize s.discardQueues = u at hempty heq ⊢
  have hqueue : ∀ p c, (u.queues.get p).get c = [] := fun p c => hempty (p, c) (mem_queuePlaces p c)
  have hport : ∀ p, u.queues.get p = ⟨[], [], [], []⟩ := fun p =>
    Quad.eq_of_get (hqueue p 0) (hqueue p 1) (hqueue p 2) (hqueue p 3)
  rwa [show u.queues = _ from Trio.eq_of_get (hport .A) (hport .B) (hport .L)] at heq

theorem State.discardQueues_released : s.Released s.discardQueues
    (s.queues.toList.flatMap fun q => q.toList.flatMap fun ds => ds.map Desc.slot) := by
  obtain ⟨hrel, -⟩ := State.discardAll_spec (places := queuePlaces) (by decide) s
  have hslots : (queuePlaces.flatMap fun x => (s.egress x.1 x.2).map Desc.slot) =
      s.queues.toList.flatMap fun q => q.toList.flatMap fun ds => ds.map Desc.slot := by
    simp only [queuePlaces, List.flatMap_assoc, List.flatMap_map]
    rfl
  rwa [hslots, ← State.discardQueues_eq_discardAll] at hrel

theorem State.emptyHolders_eq : s.emptyHolders = { s with ports := ⟨{ s.ports.A with holder := none },
    { s.ports.B with holder := none }, { s.ports.L with holder := none }⟩ } := rfl

end

/-- Settles O47: what waits before the reply is what `State.discardQueues`, `State.flushRecords` and
`State.emptyHolders` leave. -/
theorem queueResetDiscardsWhatWaits : Obligations.QueueResetDiscardsWhatWaits := by
  intro s s1 req hr hk
  refine ⟨s1.discardQueues.flushRecords.emptyHolders, answers_of_body rfl hr (by rw [hk]; rfl) rfl (by decide), ?_, ?_⟩
  · rw [State.emptyHolders_eq, State.flushRecords_eq, State.discardQueues_eq]
  · have hflush := s1.discardQueues.flushRecords_released
    rw [show s1.discardQueues.retention = s1.retention by simp] at hflush
    exact s1.discardQueues_released.append (hflush.of_store rfl (by simp))

/-! ### DEVICE RESET (R163) -/

section

variable {s : State}

theorem State.ReplyQueued.mgmt_eq {u : State} {p : Port} {n : Nat} {r : Reply} {m : Management}
    (h : s.ReplyQueued u p n r m) : u.mgmt = m := by
  obtain ⟨-, d, -, hu⟩ := h
  rw [hu]

theorem State.releaseSlot?_released (o : Option Nat) : s.Released (s.releaseSlot? o) o.toList := by
  cases o with
  | none => exact State.Released.refl s
  | some n => exact s.releaseSlot_released n

theorem State.abandonReception_released (p : Port) :
    s.Released (s.abandonReception p) ((s.port p).rx.bind Reception.slot).toList := by
  have hrel := State.releaseSlot?_released (s := s.modPort p fun u => { u with rx := none }) ((s.port p).rx.bind Reception.slot)
  rw [State.abandonReception_eq_releaseSlot?]
  exact hrel.of_store rfl rfl

/-- Abandoning the receptions of every port releases their slots in port order and changes nothing else. -/
theorem State.abandonReceptions_spec (s : State) : let u := allPorts.foldl State.abandonReception s
    s.Released u (s.ports.toList.filterMap fun x => x.rx.bind Reception.slot) ∧
    u = { s with
      ports := ⟨{ s.ports.A with rx := none }, { s.ports.B with rx := none }, { s.ports.L with rx := none }⟩
      store := u.store } := by
  intro u
  have hA := s.abandonReception_released .A
  have hB := (s.abandonReception .A).abandonReception_released .B
  have hL := ((s.abandonReception .A).abandonReception .B).abandonReception_released .L
  rw [show (s.abandonReception .A).port .B = s.port .B by rw [State.abandonReception_eq]; rfl] at hB
  rw [show ((s.abandonReception .A).abandonReception .B).port .L = s.port .L by
    rw [State.abandonReception_eq, State.abandonReception_eq]; rfl] at hL
  refine ⟨?_, ?_⟩
  · have hslots : (s.ports.toList.filterMap fun x => x.rx.bind Reception.slot) =
        ((s.port .A).rx.bind Reception.slot).toList ++ (((s.port .B).rx.bind Reception.slot).toList ++
          ((s.port .L).rx.bind Reception.slot).toList) := by
      simp only [Trio.toList, List.filterMap_cons, List.filterMap_nil, State.port, Trio.get]
      cases s.ports.A.rx.bind Reception.slot <;> cases s.ports.B.rx.bind Reception.slot <;>
        cases s.ports.L.rx.bind Reception.slot <;> rfl
    rw [hslots]
    exact hA.append (hB.append hL)
  · have heq : u = ((s.abandonReception .A).abandonReception .B).abandonReception .L := rfl
    rw [heq, State.abandonReception_eq _ .L, State.abandonReception_eq _ .B, State.abandonReception_eq _ .A]
    rfl

end

/-- Settles O48. -/
theorem deviceResetBeginsTheDrain : Obligations.DeviceResetBeginsTheDrain := by
  intro s s1 req hr hk
  obtain ⟨-, -, hslot⟩ := id hr
  let v := (s1.answerBare req .done).setEngine .stopped
  obtain ⟨hrel, heq⟩ := v.abandonReceptions_spec
  have hqueued : s1.ReplyQueued v req.ingress req.slot (s1.plainReply req .done 0 []) (s1.mgmt.answeredTo req .done .stopped) := by
    have hanswer := s1.answer_queued req .done 0 [] hslot (by decide)
    have hv : v = { s1.answer req .done 0 [] with mgmt := s1.mgmt.answeredTo req .done .stopped } := by
      have hmgmt : (s1.answer req .done 0 []).mgmt = s1.mgmt.answeredTo req .done .idle := hanswer.mgmt_eq
      simp only [v, State.answerBare, State.setEngine, hmgmt]
      rfl
    rw [hv]
    exact hanswer.setMgmt _
  refine ⟨v, (allPorts.foldl State.abandonReception v).setDrain (some (s1.drainOf req)), hqueued,
    exec_of_body rfl hr (by rw [hk]; rfl) rfl, ?_, hrel.of_store rfl rfl, fun p => ?_⟩
  · rw [heq]
    rfl
  · rw [heq]
    cases p <;> rfl

end Sys2Proof.Machine
end

section
/-! REQUEUE RETAINED (O45). -/

namespace Sys2Proof.Machine

open Sys2Proof

/-- The state once `j` records have moved from the head, each into a queue with room for it (R114). -/
inductive State.Requeued (s : State) : Nat → State → Prop
  | start : s.Requeued 0 s
  | move {j : Nat} {u : State} {r : Record} {rest : List Record} : s.Requeued j u → u.retention.records = r :: rest →
      u.requeueStop r = none → s.Requeued (j + 1) (u.requeueOne r rest)

/-- The records among the first `j` that go to one queue. -/
def State.movedTo (s : State) (j : Nat) (p : Port) (c : Cls) : List Record :=
  (s.retention.records.take j).filter fun r => decide (r.egress = some p) && decide (r.cls = c)

/-- The depth of a queue once `j` records have moved. -/
abbrev State.depthAfter (s : State) (j : Nat) (p : Port) (c : Cls) : Nat := (s.egress p c).length + (s.movedTo j p c).length

section

variable {s u : State} {j n : Nat} {r : Record} {rest : List Record} {p : Port} {c : Cls}

theorem State.movedTo_succ (h : s.retention.records[j]? = some r) :
    s.movedTo (j + 1) p c = if r.egress = some p ∧ r.cls = c then s.movedTo j p c ++ [r] else s.movedTo j p c := by
  obtain ⟨hj, hr⟩ := List.getElem?_eq_some_iff.mp h
  rw [State.movedTo, State.movedTo, List.take_succ_eq_append_getElem hj, hr, List.filter_append, List.filter_singleton,
    ← Bool.decide_and]
  by_cases hto : r.egress = some p ∧ r.cls = c <;> simp [hto]

/-- A record that may move is appended to the queue it names. -/
theorem State.requeueOne_of_egress (hp : r.egress = some p) :
    u.requeueOne r rest = (u.append p r.cls (r.toDesc u.timer.cycleCount)).setRecords rest := by
  simp only [State.requeueOne, hp]

theorem State.egress_of_requeueStop (h : u.requeueStop r = none) : ∃ p, r.egress = some p := by
  obtain ⟨-, -, p, hp, -⟩ := (u.requeueStop_eq_none r).mp h
  exact ⟨p, hp⟩

/-! ### What moving records leaves and changes -/

theorem State.Requeued.eq (h : s.Requeued j u) : j ≤ s.retention.records.length ∧ u = { s with
    queues := u.queues, opportunities := u.opportunities
    retention := { s.retention with records := s.retention.records.drop j } } := by
  induction h with
  | start => exact ⟨Nat.zero_le _, rfl⟩
  | @move j u r rest h hrec hstop ih =>
    obtain ⟨hj, hu⟩ := ih
    obtain ⟨p, hp⟩ := State.egress_of_requeueStop hstop
    have hdrop : s.retention.records.drop j = r :: rest := by rw [← hrec, hu]
    have hlt : j < s.retention.records.length := by
      have hlen := congrArg List.length hdrop
      rw [List.length_drop, List.length_cons] at hlen
      omega
    refine ⟨hlt, ?_⟩
    have hrest : s.retention.records.drop (j + 1) = rest := by rw [← List.drop_drop, hdrop]; rfl
    rw [State.requeueOne_of_egress hp, hrest]
    have hkeep : ∀ (q : Trio (Quad (List Desc))) (o : Trio Bool), ({ u with
        queues := q, opportunities := o, retention := { u.retention with records := rest } } : State) =
        { s with queues := q, opportunities := o, retention := { s.retention with records := rest } } := by
      intro q o
      rw [hu]
    exact hkeep _ _

theorem State.Requeued.records (h : s.Requeued j u) : u.retention.records = s.retention.records.drop j := by
  rw [h.eq.2]

theorem State.Requeued.timer (h : s.Requeued j u) : u.timer = s.timer := by rw [h.eq.2]

theorem State.Requeued.port (h : s.Requeued j u) (p : Port) : u.port p = s.port p := by rw [h.eq.2]; rfl

theorem State.Requeued.base (h : s.Requeued j u) : u.base = s.base := by rw [h.eq.2]; rfl

/-- The record that heads the list is the next of the records. -/
theorem State.Requeued.head (h : s.Requeued j u) (hrec : u.retention.records = r :: rest) :
    s.retention.records[j]? = some r := by
  have hdrop := h.records.symm.trans hrec
  have hhead : (s.retention.records.drop j)[0]? = some r := by rw [hdrop]; rfl
  simpa using hhead

theorem State.Requeued.egress (h : s.Requeued j u) (p : Port) (c : Cls) :
    u.egress p c = s.egress p c ++ (s.movedTo j p c).map fun r => r.toDesc s.timer.cycleCount := by
  induction h with
  | start => exact (List.append_nil _).symm
  | @move j u r rest h hrec hstop ih =>
    obtain ⟨q, hq⟩ := State.egress_of_requeueStop hstop
    rw [State.requeueOne_of_egress hq, State.movedTo_succ (h.head hrec), h.timer]
    refine (State.egress_append ..).trans ?_
    by_cases hto : p = q ∧ c = r.cls
    · obtain ⟨rfl, rfl⟩ := hto
      rw [if_pos ⟨rfl, rfl⟩, if_pos ⟨hq, rfl⟩, ih, List.map_append, List.append_assoc]
      rfl
    · rw [if_neg hto, if_neg, ih]
      rintro ⟨hp, hc⟩
      exact hto ⟨Option.some_inj.mp (hp.symm.trans hq), hc.symm⟩

theorem State.Requeued.depth (h : s.Requeued j u) (p : Port) (c : Cls) : (u.egress p c).length = s.depthAfter j p c := by
  rw [h.egress, List.length_append, List.length_map]

theorem State.Requeued.descsInUse (h : s.Requeued j u) : u.descsInUse = s.descsInUse + j := by
  induction h with
  | start => rfl
  | @move j u r rest h hrec hstop ih =>
    obtain ⟨q, hq⟩ := State.egress_of_requeueStop hstop
    rw [State.requeueOne_of_egress hq]
    refine (State.descsInUse_append ..).trans ?_
    omega

theorem State.Requeued.opportunities (h : s.Requeued j u) (p : Port) : u.opportunities.get p = true ↔
    s.opportunities.get p = true ∨ ∃ r ∈ s.retention.records.take j, r.egress = some p := by
  induction h with
  | start => simp
  | @move j u r rest h hrec hstop ih =>
    obtain ⟨q, hq⟩ := State.egress_of_requeueStop hstop
    obtain ⟨hj, hr⟩ := List.getElem?_eq_some_iff.mp (h.head hrec)
    have hraise : (u.requeueOne r rest).opportunities.get p = if p = q then true else u.opportunities.get p := by
      rw [State.requeueOne_of_egress hq]
      exact Trio.get_set ..
    rw [hraise, List.take_succ_eq_append_getElem hj, hr]
    by_cases hpq : p = q
    · subst hpq
      simp [hq]
    · have hother : ¬ q = p := fun e => hpq e.symm
      simp [hpq, ih, hq, hother, or_and_right, exists_or]

/-! ### What stops the move (R114) -/

/-- Whether a queue has no room for a record once `j` records have moved (R67). -/
abbrev State.fullAfter (s : State) (j : Nat) (p : Port) (c : Cls) : Prop :=
  ((s.base.limits.get p).get c).toNat ≤ s.depthAfter j p c ∨ 128 ≤ s.depthAfter j p c

theorem State.Requeued.free_iff (h : s.Requeued j u) : u.requeueStop r = none ↔ r.reason ≠ .captured ∧
    s.descsInUse + j < 512 ∧ ∃ p, r.egress = some p ∧ (s.port p).state = .up ∧ ¬ s.fullAfter j p r.cls := by
  rw [State.requeueStop_eq_none, h.descsInUse]
  simp only [h.depth, h.port, h.base, State.fullAfter, not_or, Nat.not_le]

/-- Every record that moved found room. -/
theorem State.Requeued.moved (h : s.Requeued j u) {i : Nat} (hi : i < j) (hr : s.retention.records[i]? = some r) :
    r.reason ≠ .captured ∧ s.descsInUse + i < 512 ∧
      ∃ p, r.egress = some p ∧ (s.port p).state = .up ∧ ¬ s.fullAfter i p r.cls := by
  induction h with
  | start => exact absurd hi (Nat.not_lt_zero _)
  | @move j u r' rest h hrec hstop ih =>
    rcases Nat.lt_succ_iff_lt_or_eq.mp hi with hlt | rfl
    · exact ih hlt
    · obtain rfl : r' = r := Option.some_inj.mp ((h.head hrec).symm.trans hr)
      exact h.free_iff.mp hstop

theorem State.requeueStop_captured (h : r.reason = .captured) : u.requeueStop r = some .captured := if_pos h

/-- The first test that a record fails names the cause. -/
theorem State.requeueStop_of_egress (hr : r.reason ≠ .captured) (hp : r.egress = some p) : u.requeueStop r =
    if (u.port p).state ≠ .up then some .portNotUp
    else if ((u.base.limits.get p).get r.cls).toNat ≤ (u.egress p r.cls).length ∨ 128 ≤ (u.egress p r.cls).length then
      some .atLimit
    else if u.descsFree = 0 then some .noDescriptor
    else none := by
  simp only [State.requeueStop, if_neg hr, hp, State.trafficAnswer_eq]
  split_ifs <;> rfl

theorem State.requeueStop_listed {cause : StopCause} (h : u.requeueStop r = some cause) :
    cause ≠ .none ∧ cause ≠ .empty := by
  by_cases hr : r.reason = .captured
  · obtain rfl := Option.some_inj.mp ((State.requeueStop_captured hr).symm.trans h)
    decide
  cases hp : r.egress with
  | none =>
    simp only [State.requeueStop, if_neg hr, hp, Option.some_inj] at h
    subst h
    decide
  | some p =>
    rw [State.requeueStop_of_egress hr hp] at h
    split_ifs at h <;> cases h <;> decide

theorem State.Requeued.stop_of_egress {cause : StopCause} (h : s.Requeued j u) (hr : r.reason ≠ .captured)
    (hp : r.egress = some p) (hstop : u.requeueStop r = some cause) :
    ((s.port p).state ≠ .up ∧ cause = .portNotUp) ∨
      ((s.port p).state = .up ∧ s.fullAfter j p r.cls ∧ cause = .atLimit) ∨
      ((s.port p).state = .up ∧ ¬ s.fullAfter j p r.cls ∧ 512 ≤ s.descsInUse + j ∧ cause = .noDescriptor) := by
  have hfree : u.descsFree = 0 ↔ 512 ≤ s.descsInUse + j := by
    rw [State.descsFree, h.descsInUse]
    exact Nat.sub_eq_zero_iff_le
  simp only [State.requeueStop_of_egress hr hp, hfree, h.port, h.base, h.depth] at hstop
  split_ifs at hstop with hup hfull hnone <;> cases hstop
  · exact .inl ⟨hup, rfl⟩
  · exact .inr (.inl ⟨not_not.mp hup, hfull, rfl⟩)
  · exact .inr (.inr ⟨not_not.mp hup, hfull, hnone, rfl⟩)

/-- Why a requeue of up to `n` records ended once `k` had moved and `u` was left. -/
inductive State.Ended (u : State) (k n : Nat) : StopCause → Prop
  | all : k = n → u.Ended k n .none
  | empty : k < n → u.retention.records = [] → u.Ended k n .empty
  | stopped {r : Record} {rest : List Record} {cause : StopCause} : k < n → u.retention.records = r :: rest →
      u.requeueStop r = some cause → u.Ended k n cause

/-- A requeue moves records one by one until it ends. -/
theorem State.Requeued.requeue (h : s.Requeued j u) (n : Nat) : let x := State.requeue n j u
    s.Requeued x.2.1 x.1 ∧ x.2.1 ≤ j + n ∧ x.1.Ended x.2.1 (j + n) x.2.2 := by
  induction n generalizing j u with
  | zero => exact ⟨h, Nat.le_refl _, .all rfl⟩
  | succ n ih =>
    have hlt : j < j + (n + 1) := by omega
    intro x
    cases hrec : u.retention.records with
    | nil =>
      rw [show x = (u, j, .empty) by simp only [x, State.requeue, hrec]]
      exact ⟨h, hlt.le, .empty hlt hrec⟩
    | cons r rest =>
      cases hstop : u.requeueStop r with
      | some cause =>
        rw [show x = (u, j, cause) by simp only [x, State.requeue, hrec, hstop]]
        exact ⟨h, hlt.le, .stopped hlt hrec hstop⟩
      | none =>
        rw [show x = State.requeue n (j + 1) (u.requeueOne r rest) by simp only [x, State.requeue, hrec, hstop],
          show j + (n + 1) = j + 1 + n by omega]
        exact ih (h.move hrec hstop)

end

theorem stopCauseCode_eq_zero_iff (c : StopCause) : stopCauseCode c = 0 ↔ c = .none := by
  cases c <;> decide

theorem stopCauseCode_eq_one_iff (c : StopCause) : stopCauseCode c = 1 ↔ c = .empty := by
  cases c <;> decide

/-- Settles O45: `State.Requeued` holds of every state of the move, and `State.Ended` says why it stops. -/
theorem requeueMovesRecordsInOrder : Obligations.RequeueMovesRecordsInOrder := by
  intro s s1 req n hr hk hn moved depth atLimit
  refine ⟨fun hbad => ?_, fun h1 h32 => ?_⟩
  · rw [hn] at hbad
    exact answers_of_body rfl hr (by rw [hk]; rfl) (if_pos hbad) (by decide)
  obtain ⟨hmoved, hle, hended⟩ := (State.Requeued.start (s := s1)).requeue n
  have hbody : s1.runRequeue req = (State.requeue n 0 s1).1.answer req .done (n - (State.requeue n 0 s1).2.1)
      [BitVec.ofNat 8 (State.requeue n 0 s1).2.1, stopCauseCode (State.requeue n 0 s1).2.2] := by
    rw [hn]
    exact if_neg (by omega)
  rw [Nat.zero_add] at hle hended
  generalize State.requeue n 0 s1 = x at hmoved hle hended hbody
  obtain ⟨s2, k, cause⟩ := x
  dsimp only at hmoved hle hended hbody
  obtain ⟨hlen, heq⟩ := hmoved.eq
  refine ⟨k, stopCauseCode cause, s2, answers_of_body rfl hr (by rw [hk]; rfl) hbody (Nat.le_of_ble_eq_true rfl), hle, hlen,
    heq, hmoved.egress, hmoved.opportunities, fun j r hj hrec => hmoved.moved hj hrec, ?_, ?_, fun r hkn hrec => ?_⟩
  · rw [stopCauseCode_eq_zero_iff]
    cases hended with
    | all hkn => exact ⟨fun _ => hkn, fun _ => rfl⟩
    | empty hkn _ => exact ⟨StopCause.noConfusion, fun h => absurd h hkn.ne⟩
    | stopped hkn _ hstop => exact ⟨fun h => absurd h (State.requeueStop_listed hstop).1, fun h => absurd h hkn.ne⟩
  · rw [stopCauseCode_eq_one_iff]
    cases hended with
    | all hkn => exact ⟨StopCause.noConfusion, fun ⟨h, _⟩ => absurd hkn h.ne⟩
    | empty hkn hnil =>
      rw [hmoved.records, List.drop_eq_nil_iff] at hnil
      exact ⟨fun _ => ⟨hkn, Nat.le_antisymm hlen hnil⟩, fun _ => rfl⟩
    | stopped hkn hcons hstop =>
      have hlt := (List.getElem?_eq_some_iff.mp (hmoved.head hcons)).1
      exact ⟨fun h => absurd h (State.requeueStop_listed hstop).2, fun ⟨_, h⟩ => absurd h hlt.ne⟩
  · cases hended with
    | all hall => exact absurd hall hkn.ne
    | empty _ hnil =>
      rw [hmoved.records, List.drop_eq_nil_iff] at hnil
      exact absurd (List.getElem?_eq_some_iff.mp hrec).1 (Nat.not_lt_of_le hnil)
    | @stopped r' _ _ _ hcons hstop =>
      obtain rfl : r' = r := Option.some_inj.mp ((hmoved.head hcons).symm.trans hrec)
      refine ⟨fun hcap => ?_, fun p hreason hp => ?_⟩
      · rw [State.requeueStop_captured hcap, Option.some_inj] at hstop
        rw [← hstop]
        rfl
      · rcases hmoved.stop_of_egress hreason hp hstop with ⟨hup, rfl⟩ | ⟨hup, hfull, rfl⟩ | ⟨hup, hfull, hnone, rfl⟩
        · exact .inl ⟨hup, rfl⟩
        · exact .inr (.inl ⟨hup, hfull, rfl⟩)
        · exact .inr (.inr ⟨hup, hfull, hnone, rfl⟩)

end Sys2Proof.Machine
end

section
/-! Table entries and their images (O60). -/

namespace Sys2Proof.Machine

open Sys2Proof

/-! ### Numbers in bytes, and lists that agree at every field -/

theorem beNat_append_singleton (l : List Byte) (b : Byte) : beNat (l ++ [b]) = beNat l * 256 + b.toNat := by
  simp [beNat]

theorem beNat_lt (l : List Byte) : beNat l < 256 ^ l.length := by
  induction l using List.reverseRecOn with
  | nil => decide
  | append_singleton l b ih =>
    have hb : b.toNat < 256 := b.isLt
    rw [beNat_append_singleton, List.length_append, List.length_singleton, Nat.pow_succ]
    omega

theorem beNat_injective {l m : List Byte} (hlen : l.length = m.length) (h : beNat l = beNat m) : l = m := by
  induction l using List.reverseRecOn generalizing m with
  | nil => exact (List.eq_nil_of_length_eq_zero hlen.symm).symm
  | append_singleton l b ih =>
    rcases List.eq_nil_or_concat m with rfl | ⟨m, c, rfl⟩
    · simp at hlen
    · rw [List.concat_eq_append, beNat_append_singleton, beNat_append_singleton] at h
      have hb : b.toNat < 256 := b.isLt
      have hc : c.toNat < 256 := c.isLt
      rw [ih (by simpa using hlen) (by omega), BitVec.eq_of_toNat_eq (x := b) (y := c) (by omega), List.concat_eq_append]

/-- The bits of a field hold its number. -/
theorem toNat_ofNat_numAt (bs : List Byte) (i k : Nat) : (BitVec.ofNat (8 * k) (numAt bs i k)).toNat = numAt bs i k := by
  have hlt : numAt bs i k < 256 ^ ((bs.drop i).take k).length := beNat_lt _
  have hle : 256 ^ ((bs.drop i).take k).length ≤ 256 ^ k := Nat.pow_le_pow_right (by decide) (List.length_take_le ..)
  rw [BitVec.toNat_ofNat, Nat.pow_mul]
  exact Nat.mod_eq_of_lt (hlt.trans_le hle)

section

variable {l m : List Byte} {i k : Nat}

theorem drop_eq_of_byteAt (hl : i < l.length) (hm : i < m.length) (h : byteAt l i = byteAt m i)
    (hrest : l.drop (i + 1) = m.drop (i + 1)) : l.drop i = m.drop i := by
  rw [byteAt, byteAt, List.getD_eq_getElem _ _ hl, List.getD_eq_getElem _ _ hm] at h
  rw [List.drop_eq_getElem_cons hl, List.drop_eq_getElem_cons hm, h, hrest]

theorem drop_eq_of_numAt (hl : i + k ≤ l.length) (hm : i + k ≤ m.length) (h : numAt l i k = numAt m i k)
    (hrest : l.drop (i + k) = m.drop (i + k)) : l.drop i = m.drop i := by
  have htake : (l.drop i).take k = (m.drop i).take k := by
    refine beNat_injective ?_ h
    rw [List.length_take, List.length_take, List.length_drop, List.length_drop]
    omega
  rw [← List.take_append_drop k (l.drop i), ← List.take_append_drop k (m.drop i), htake, List.drop_drop, List.drop_drop, hrest]

theorem segment_eq_quadAt (hl : i + 4 ≤ l.length) : (l.drop i).take 4 = (quadAt l i).toList := by
  rw [List.drop_eq_getElem_cons (by omega), List.drop_eq_getElem_cons (by omega), List.drop_eq_getElem_cons (by omega),
    List.drop_eq_getElem_cons (by omega), quadAt, Quad.toList, byteAt, byteAt, byteAt, byteAt,
    List.getD_eq_getElem _ _ (by omega), List.getD_eq_getElem _ _ (by omega), List.getD_eq_getElem _ _ (by omega),
    List.getD_eq_getElem _ _ (by omega)]
  rfl

theorem drop_eq_of_quadAt (hl : i + 4 ≤ l.length) (hm : i + 4 ≤ m.length) (h : quadAt l i = quadAt m i)
    (hrest : l.drop (i + 4) = m.drop (i + 4)) : l.drop i = m.drop i := by
  obtain ⟨h0, h1, h2, h3⟩ := Quad.mk.inj h
  exact drop_eq_of_byteAt (by omega) (by omega) h0 (drop_eq_of_byteAt (by omega) (by omega) h1
    (drop_eq_of_byteAt (by omega) (by omega) h2 (drop_eq_of_byteAt (by omega) (by omega) h3 hrest)))

end

/-! ### Bytes that hold a code or a set (R170, 12.6) -/

theorem byteLe_iff (b : Byte) (n : Nat) : byteLe b n = true ↔ b.toNat ≤ n := decide_eq_true_iff

/-- The codes up to `n`. -/
theorem byteLe_iff_mem (b : Byte) {n : Nat} (hn : n < 256) :
    byteLe b n = true ↔ b ∈ (List.range (n + 1)).map (BitVec.ofNat 8) := by
  rw [byteLe_iff, List.mem_map]
  constructor
  · exact fun h => ⟨b.toNat, List.mem_range.mpr (by omega), by simp⟩
  · rintro ⟨k, hk, rfl⟩
    rw [List.mem_range] at hk
    rw [BitVec.toNat_ofNat, Nat.mod_eq_of_lt (by omega)]
    omega

theorem byteLe_one_iff (b : Byte) : byteLe b 1 = true ↔ b ∈ ([0, 1] : List Byte) := byteLe_iff_mem b (by decide)

theorem byteLe_two_iff (b : Byte) : byteLe b 2 = true ↔ b ∈ ([0, 1, 2] : List Byte) := byteLe_iff_mem b (by decide)

theorem byteLe_three_iff (b : Byte) : byteLe b 3 = true ↔ b ∈ ([0, 1, 2, 3] : List Byte) := byteLe_iff_mem b (by decide)

theorem byteLe_four_iff (b : Byte) : byteLe b 4 = true ↔ b ∈ ([0, 1, 2, 3, 4] : List Byte) := byteLe_iff_mem b (by decide)

/-- A set without a bit above its `n` members. -/
theorem byteLe_iff_noBit (b : Byte) {n k : Nat} (hk : k + 1 = 2 ^ n) :
    byteLe b k = true ↔ ∀ i, n ≤ i → b.getLsbD i = false := by
  rw [byteLe_iff]
  constructor
  · exact fun h i hi => Nat.testBit_lt_two_pow (lt_of_lt_of_le (by omega) (Nat.pow_le_pow_right (by decide) hi))
  · intro h
    have hlt : b.toNat < 2 ^ n := Nat.lt_pow_two_of_testBit _ h
    omega

theorem eq_of_byteLe_one {b : Byte} (h : byteLe b 1 = true) : b = 0 ∨ b = 1 := by
  simpa using (byteLe_one_iff b).mp h

theorem eq_of_byteLe_two {b : Byte} (h : byteLe b 2 = true) : b = 0 ∨ b = 1 ∨ b = 2 := by
  simpa using (byteLe_two_iff b).mp h

theorem eq_of_byteLe_three {b : Byte} (h : byteLe b 3 = true) : b = 0 ∨ b = 1 ∨ b = 2 ∨ b = 3 := by
  simpa using (byteLe_three_iff b).mp h

theorem eq_of_byteLe_four {b : Byte} (h : byteLe b 4 = true) : b = 0 ∨ b = 1 ∨ b = 2 ∨ b = 3 ∨ b = 4 := by
  simpa using (byteLe_four_iff b).mp h

/-! #### Flags -/

theorem flagByte_eq (v : Bool) : flagByte v = if v then 1 else 0 := rfl

theorem flagByte_le (v : Bool) : byteLe (flagByte v) 1 = true := by cases v <;> rfl

theorem beq_one_flagByte (v : Bool) : (flagByte v == 1) = v := by cases v <;> rfl

theorem flagByte_beq_one {b : Byte} (h : byteLe b 1 = true) : flagByte (b == 1) = b := by
  rcases eq_of_byteLe_one h with rfl | rfl <;> rfl

/-- Two flags in one byte. -/
abbrev flagsByte (v w : Bool) : Byte := flagByte v ||| (flagByte w <<< 1)

theorem flagsByte_le (v w : Bool) : byteLe (flagsByte v w) 3 = true := by cases v <;> cases w <;> rfl

theorem toNat_flagsByte (v w : Bool) : (flagsByte v w).toNat = (if v then 1 else 0) + (if w then 2 else 0) := by
  cases v <;> cases w <;> rfl

theorem bit_zero_flagsByte (v w : Bool) : (flagsByte v w).getLsbD 0 = v := by cases v <;> cases w <;> rfl

theorem bit_one_flagsByte (v w : Bool) : (flagsByte v w).getLsbD 1 = w := by cases v <;> cases w <;> rfl

theorem flagsByte_bits {b : Byte} (h : byteLe b 3 = true) : flagsByte (b.getLsbD 0) (b.getLsbD 1) = b := by
  rcases eq_of_byteLe_three h with rfl | rfl | rfl | rfl <;> rfl

/-! #### Sets -/

section

variable {n : Nat}

theorem setByte_le (x : BitVec n) : byteLe (x.setWidth 8) (2 ^ n - 1) = true := by
  have hx := x.isLt
  rw [byteLe_iff, BitVec.toNat_setWidth]
  exact (Nat.mod_le ..).trans (by omega)

theorem bits_setByte (x : BitVec n) (hn : n ≤ 8) (i : Nat) : (x.setWidth 8).getLsbD i = x.getLsbD i := by
  rw [BitVec.getLsbD_setWidth]
  by_cases hi : i < 8
  · simp [hi]
  · simp [BitVec.getLsbD_of_ge x i (by omega), hi]

theorem set_setByte (x : BitVec n) (hn : n ≤ 8) : (x.setWidth 8).setWidth n = x := by
  rw [BitVec.setWidth_setWidth_of_le _ hn, BitVec.setWidth_eq]

theorem setByte_set {b : Byte} {k : Nat} (h : byteLe b k = true) (hk : k < 2 ^ n) : (b.setWidth n).setWidth 8 = b := by
  rw [byteLe_iff] at h
  refine BitVec.eq_of_toNat_eq ?_
  rw [BitVec.toNat_setWidth, BitVec.toNat_setWidth, Nat.mod_eq_of_lt (a := b.toNat) (by omega), Nat.mod_eq_of_lt b.isLt]

end

/-! #### Codes (12.6): each is listed, read back from its byte, and its byte from it -/

theorem actionCode_le (a : Action) : byteLe (actionCode a) 2 = true := by cases a <;> rfl

theorem action_of_code (a : Action) :
    (if actionCode a = 0 then Action.forward else if actionCode a = 1 then .drop else .retain) = a := by cases a <;> rfl

theorem actionCode_of_byte {b : Byte} (h : byteLe b 2 = true) :
    actionCode (if b = 0 then .forward else if b = 1 then .drop else .retain) = b := by
  rcases eq_of_byteLe_two h with rfl | rfl | rfl <;> rfl

theorem routeCode_le (r : Route) : byteLe (routeCode r) 4 = true := by
  rcases r with (_ | _ | _) | _ | _ <;> rfl

theorem route_of_code (r : Route) : (if routeCode r = 0 then Route.port .A else if routeCode r = 1 then .port .B
    else if routeCode r = 2 then .port .L else if routeCode r = 3 then .bothOthers else .default) = r := by
  rcases r with (_ | _ | _) | _ | _ <;> rfl

theorem routeCode_of_byte {b : Byte} (h : byteLe b 4 = true) : routeCode (if b = 0 then .port .A else if b = 1 then .port .B
    else if b = 2 then .port .L else if b = 3 then .bothOthers else .default) = b := by
  rcases eq_of_byteLe_four h with rfl | rfl | rfl | rfl | rfl <;> rfl

theorem classByte_le (c : Cls) : byteLe (BitVec.ofNat 8 c.val) 3 = true := by fin_cases c <;> rfl

theorem toNat_classByte (c : Cls) : (BitVec.ofNat 8 c.val).toNat = c.val := by fin_cases c <;> rfl

theorem clsOfByte_classByte (c : Cls) : clsOfByte (BitVec.ofNat 8 c.val) = c := by fin_cases c <;> rfl

theorem classByte_clsOfByte {b : Byte} (h : byteLe b 3 = true) : BitVec.ofNat 8 (clsOfByte b).val = b := by
  rcases eq_of_byteLe_three h with rfl | rfl | rfl | rfl <;> rfl

theorem latePolicyCode_le (x : LatePolicy) : byteLe (latePolicyCode x) 2 = true := by cases x <;> rfl

theorem latePolicy_of_code (x : LatePolicy) :
    (if latePolicyCode x = 0 then LatePolicy.hold else if latePolicyCode x = 1 then .drop else .retain) = x := by
  cases x <;> rfl

theorem latePolicyCode_of_byte {b : Byte} (h : byteLe b 2 = true) :
    latePolicyCode (if b = 0 then .hold else if b = 1 then .drop else .retain) = b := by
  rcases eq_of_byteLe_two h with rfl | rfl | rfl <;> rfl

theorem overBudgetCode_le (x : OverBudget) : byteLe (overBudgetCode x) 1 = true := by cases x <;> rfl

theorem overBudget_of_code (x : OverBudget) : (if overBudgetCode x = 0 then OverBudget.drop else .demote) = x := by
  cases x <;> rfl

theorem overBudgetCode_of_byte {b : Byte} (h : byteLe b 1 = true) : overBudgetCode (if b = 0 then .drop else .demote) = b := by
  rcases eq_of_byteLe_one h with rfl | rfl <;> rfl

theorem monitorCode_le (x : Monitor) : byteLe (monitorCode x) 2 = true := by cases x <;> rfl

theorem monitor_of_code (x : Monitor) :
    (if monitorCode x = 0 then Monitor.off else if monitorCode x = 1 then .count else .discard) = x := by cases x <;> rfl

theorem monitorCode_of_byte {b : Byte} (h : byteLe b 2 = true) :
    monitorCode (if b = 0 then .off else if b = 1 then .count else .discard) = b := by
  rcases eq_of_byteLe_two h with rfl | rfl | rfl <;> rfl

theorem portCode_le (p : Port) : byteLe (portCode p) 2 = true := by cases p <;> rfl

theorem port_of_code (p : Port) : (if portCode p = 0 then Port.A else if portCode p = 1 then .B else .L) = p := by
  cases p <;> rfl

theorem portCode_of_byte {b : Byte} (h : byteLe b 2 = true) : portCode (if b = 0 then .A else if b = 1 then .B else .L) = b := by
  rcases eq_of_byteLe_two h with rfl | rfl | rfl <;> rfl

theorem chainPortCode_le (p : ChainPort) : byteLe (chainPortCode p) 1 = true := by cases p <;> rfl

theorem chainPort_of_code (p : ChainPort) : (if chainPortCode p = 0 then ChainPort.A else .B) = p := by cases p <;> rfl

theorem chainPortCode_of_byte {b : Byte} (h : byteLe b 1 = true) : chainPortCode (if b = 0 then .A else .B) = b := by
  rcases eq_of_byteLe_one h with rfl | rfl <;> rfl

theorem unlockedCode_le (x : UnlockedPolicy) : byteLe (unlockedCode x) 1 = true := by cases x <;> rfl

theorem unlocked_of_code (x : UnlockedPolicy) :
    (if unlockedCode x = 0 then UnlockedPolicy.runLocal else .holdScheduled) = x := by cases x <;> rfl

theorem unlockedCode_of_byte {b : Byte} (h : byteLe b 1 = true) :
    unlockedCode (if b = 0 then .runLocal else .holdScheduled) = b := by
  rcases eq_of_byteLe_one h with rfl | rfl <;> rfl

theorem unmatchedCode_le (x : UnmatchedAction) : byteLe (unmatchedCode x) 1 = true := by cases x <;> rfl

theorem unmatched_of_code (x : UnmatchedAction) : (if unmatchedCode x = 0 then UnmatchedAction.drop else .forward) = x := by
  cases x <;> rfl

theorem unmatchedCode_of_byte {b : Byte} (h : byteLe b 1 = true) : unmatchedCode (if b = 0 then .drop else .forward) = b := by
  rcases eq_of_byteLe_one h with rfl | rfl <;> rfl

/-! ### Where the fields of an image stand (12.4) -/

theorem streamImage_fields (e : StreamEntry) : let bs := streamImage e
    byteAt bs 0x00 = flagByte e.valid ∧ byteAt bs 0x01 = e.ports.setWidth 8 ∧ byteAt bs 0x02 = e.kinds.setWidth 8 ∧
    byteAt bs 0x03 = flagsByte e.srcAny e.dstAny ∧ byteAt bs 0x04 = e.src ∧ byteAt bs 0x05 = e.dst ∧
    numAt bs 0x06 2 = e.tagLow.toNat ∧ numAt bs 0x08 2 = e.tagHigh.toNat ∧ byteAt bs 0x0A = actionCode e.action ∧
    byteAt bs 0x0B = routeCode e.route ∧ byteAt bs 0x0C = BitVec.ofNat 8 e.cls.val ∧
    byteAt bs 0x0D = latePolicyCode e.late ∧ byteAt bs 0x0E = e.maxWait ∧ byteAt bs 0x0F = overBudgetCode e.overBudget ∧
    numAt bs 0x10 2 = e.budget.toNat ∧ numAt bs 0x12 2 = e.maxLength.toNat ∧ byteAt bs 0x14 = monitorCode e.monitor ∧
    byteAt bs 0x15 = flagByte e.capture ∧ numAt bs 0x16 10 = e.spare.toNat := by
  have hmod : ∀ x : W16, x.toNat % 256 ^ 2 = x.toNat := fun x => Nat.mod_eq_of_lt x.isLt
  have hspare : e.spare.toNat % 256 ^ 10 = e.spare.toNat := Nat.mod_eq_of_lt e.spare.isLt
  intro bs
  simp [bs, streamImage, byteAt_cons_of_pos, byteAt_append_of_ge, byteAt_cons_zero, numAt_append_of_ge, numAt_cons_of_pos,
    numAt_beBytes_append, numAt_beBytes_self, -Nat.reducePow, hmod, hspare]

theorem windowImage_fields (w : WindowEntry) : let bs := windowImage w
    byteAt bs 0x00 = flagByte w.valid ∧ byteAt bs 0x01 = portCode w.port ∧ byteAt bs 0x02 = w.classes.setWidth 8 ∧
    byteAt bs 0x03 = flagsByte w.guarded w.exclusive ∧ numAt bs 0x04 3 = w.openOffset.toNat ∧
    numAt bs 0x07 3 = w.closeOffset.toNat ∧ byteAt bs 0x0A = w.indexMatch ∧ byteAt bs 0x0B = w.modulus ∧
    byteAt bs 0x0C = w.residue ∧ numAt bs 0x0D 3 = w.spare.toNat := by
  have hmod : ∀ x : BitVec 24, x.toNat % 256 ^ 3 = x.toNat := fun x => Nat.mod_eq_of_lt x.isLt
  intro bs
  simp [bs, windowImage, byteAt_cons_of_pos, byteAt_append_of_ge, byteAt_cons_zero, numAt_append_of_ge, numAt_cons_of_pos,
    numAt_beBytes_append, numAt_beBytes_self, -Nat.reducePow, hmod]

theorem baseImage_fields (b : BaseRecord) : let bs := baseImage b
    numAt bs 0x00 3 = b.cycleLength.toNat ∧ byteAt bs 0x03 = b.cyclesPerRound ∧ byteAt bs 0x04 = chainPortCode b.timingPort ∧
    byteAt bs 0x05 = unlockedCode b.unlocked ∧ numAt bs 0x06 2 = b.linkDelay.toNat ∧
    numAt bs 0x08 2 = b.lockWindow.toNat ∧ numAt bs 0x0A 3 = b.stepThreshold.toNat ∧
    numAt bs 0x0D 2 = b.holdoverLimit.toNat ∧ byteAt bs 0x0F = b.scheduled.A.setWidth 8 ∧
    byteAt bs 0x10 = b.scheduled.B.setWidth 8 ∧ byteAt bs 0x11 = b.scheduled.L.setWidth 8 ∧
    quadAt bs 0x12 = b.limits.A ∧ quadAt bs 0x16 = b.limits.B ∧ quadAt bs 0x1A = b.limits.L ∧
    byteAt bs 0x1E = b.mgmtClass ∧ byteAt bs 0x1F = b.stationCount ∧ quadAt bs 0x20 = b.stations ∧
    byteAt bs 0x24 = unmatchedCode b.unmatched ∧ byteAt bs 0x25 = chainPortCode b.uplink ∧ byteAt bs 0x26 = b.node ∧
    byteAt bs 0x27 = flagByte b.managerPresent ∧ byteAt bs 0x28 = b.manager ∧
    byteAt bs 0x29 = b.noticeKinds.setWidth 8 ∧ byteAt bs 0x2A = b.noticePort ∧ byteAt bs 0x2B = b.highMark ∧
    numAt bs 0x2C 20 = b.spare.toNat := by
  have hmod : ∀ x : W16, x.toNat % 256 ^ 2 = x.toNat := fun x => Nat.mod_eq_of_lt x.isLt
  have hmod' : ∀ x : W24, x.toNat % 256 ^ 3 = x.toNat := fun x => Nat.mod_eq_of_lt x.isLt
  have hspare : b.spare.toNat % 256 ^ 20 = b.spare.toNat := Nat.mod_eq_of_lt b.spare.isLt
  intro bs
  simp [bs, baseImage, quadAt, Quad.toList, byteAt_cons_of_pos, byteAt_append_of_ge, byteAt_cons_zero, numAt_append_of_ge,
    numAt_cons_of_pos, numAt_beBytes_append, numAt_beBytes_self, -Nat.reducePow, hmod, hmod', hspare]

/-! ### The encoding checks, and the round trips (R121, R170) -/

theorem streamEncodingOk_iff (bs : List Byte) : streamEncodingOk bs = true ↔ byteLe (byteAt bs 0x00) 1 = true ∧
    byteLe (byteAt bs 0x01) 7 = true ∧ byteLe (byteAt bs 0x02) 15 = true ∧ byteLe (byteAt bs 0x03) 3 = true ∧
    byteLe (byteAt bs 0x0A) 2 = true ∧ byteLe (byteAt bs 0x0B) 4 = true ∧ byteLe (byteAt bs 0x0C) 3 = true ∧
    byteLe (byteAt bs 0x0D) 2 = true ∧ byteLe (byteAt bs 0x0F) 1 = true ∧ byteLe (byteAt bs 0x14) 2 = true ∧
    byteLe (byteAt bs 0x15) 1 = true := by
  simp only [streamEncodingOk, Bool.and_eq_true, and_assoc]

theorem windowEncodingOk_iff (bs : List Byte) : windowEncodingOk bs = true ↔ byteLe (byteAt bs 0x00) 1 = true ∧
    byteLe (byteAt bs 0x01) 2 = true ∧ byteLe (byteAt bs 0x02) 15 = true ∧ byteLe (byteAt bs 0x03) 3 = true := by
  simp only [windowEncodingOk, Bool.and_eq_true, and_assoc]

theorem baseEncodingOk_iff (bs : List Byte) : baseEncodingOk bs = true ↔ byteLe (byteAt bs 0x04) 1 = true ∧
    byteLe (byteAt bs 0x05) 1 = true ∧ byteLe (byteAt bs 0x0F) 15 = true ∧ byteLe (byteAt bs 0x10) 15 = true ∧
    byteLe (byteAt bs 0x11) 15 = true ∧ byteLe (byteAt bs 0x24) 1 = true ∧ byteLe (byteAt bs 0x25) 1 = true ∧
    byteLe (byteAt bs 0x27) 1 = true ∧ byteLe (byteAt bs 0x29) 15 = true := by
  simp only [baseEncodingOk, Bool.and_eq_true, and_assoc]

theorem streamImage_ok (e : StreamEntry) : streamEncodingOk (streamImage e) = true := by
  obtain ⟨h0, h1, h2, h3, -, -, -, -, hA, hB, hC, hD, -, hF, -, -, h14, h15, -⟩ := streamImage_fields e
  rw [streamEncodingOk_iff, h0, h1, h2, h3, hA, hB, hC, hD, hF, h14, h15]
  exact ⟨flagByte_le _, setByte_le _, setByte_le _, flagsByte_le _ _, actionCode_le _, routeCode_le _, classByte_le _,
    latePolicyCode_le _, overBudgetCode_le _, monitorCode_le _, flagByte_le _⟩

theorem windowImage_ok (w : WindowEntry) : windowEncodingOk (windowImage w) = true := by
  obtain ⟨h0, h1, h2, h3, -⟩ := windowImage_fields w
  rw [windowEncodingOk_iff, h0, h1, h2, h3]
  exact ⟨flagByte_le _, portCode_le _, setByte_le _, flagsByte_le _ _⟩

theorem baseImage_ok (b : BaseRecord) : baseEncodingOk (baseImage b) = true := by
  obtain ⟨-, -, h4, h5, -, -, -, -, hF, h10, h11, -, -, -, -, -, -, h24, h25, -, h27, -, h29, -⟩ := baseImage_fields b
  rw [baseEncodingOk_iff, h4, h5, hF, h10, h11, h24, h25, h27, h29]
  exact ⟨chainPortCode_le _, unlockedCode_le _, setByte_le _, setByte_le _, setByte_le _, unmatchedCode_le _,
    chainPortCode_le _, flagByte_le _, setByte_le _⟩

theorem streamOfImage_streamImage (e : StreamEntry) : streamOfImage (streamImage e) = e := by
  obtain ⟨h0, h1, h2, h3, h4, h5, h6, h8, hA, hB, hC, hD, hE, hF, h10, h12, h14, h15, h16⟩ := streamImage_fields e
  rw [streamOfImage, h0, h1, h2, h3, h4, h5, h6, h8, hA, hB, hC, hD, hE, hF, h10, h12, h14, h15, h16, beq_one_flagByte,
    beq_one_flagByte, set_setByte _ (by decide), set_setByte _ (by decide), bit_zero_flagsByte, bit_one_flagsByte,
    action_of_code, route_of_code, clsOfByte_classByte, latePolicy_of_code, overBudget_of_code, monitor_of_code]
  simp only [BitVec.ofNat_toNat, BitVec.setWidth_eq]

theorem windowOfImage_windowImage (w : WindowEntry) : windowOfImage (windowImage w) = w := by
  obtain ⟨h0, h1, h2, h3, h4, h7, hA, hB, hC, hD⟩ := windowImage_fields w
  rw [windowOfImage, h0, h1, h2, h3, h4, h7, hA, hB, hC, hD, beq_one_flagByte, port_of_code, set_setByte _ (by decide),
    bit_zero_flagsByte, bit_one_flagsByte]
  simp only [BitVec.ofNat_toNat, BitVec.setWidth_eq]

theorem baseOfImage_baseImage (b : BaseRecord) : baseOfImage (baseImage b) = b := by
  obtain ⟨h0, h3, h4, h5, h6, h8, hA, hD, hF, h10, h11, h12, h16, h1A, h1E, h1F, h20, h24, h25, h26, h27, h28, h29, h2A, h2B,
    h2C⟩ := baseImage_fields b
  rw [baseOfImage, h0, h3, h4, h5, h6, h8, hA, hD, hF, h10, h11, h12, h16, h1A, h1E, h1F, h20, h24, h25, h26, h27, h28, h29,
    h2A, h2B, h2C, chainPort_of_code, chainPort_of_code, unlocked_of_code, unmatched_of_code, beq_one_flagByte,
    set_setByte _ (by decide), set_setByte _ (by decide), set_setByte _ (by decide), set_setByte _ (by decide)]
  simp only [BitVec.ofNat_toNat, BitVec.setWidth_eq]

theorem streamImage_streamOfImage {bs : List Byte} (hlen : bs.length = 32) (hok : streamEncodingOk bs = true) :
    streamImage (streamOfImage bs) = bs := by
  obtain ⟨k0, k1, k2, k3, kA, kB, kC, kD, kF, k14, k15⟩ := (streamEncodingOk_iff bs).mp hok
  obtain ⟨h0, h1, h2, h3, h4, h5, h6, h8, hA, hB, hC, hD, hE, hF, h10, h12, h14, h15, h16⟩ :=
    streamImage_fields (streamOfImage bs)
  have hlen' := streamImage_length (streamOfImage bs)
  generalize streamImage (streamOfImage bs) = image at *
  refine drop_eq_of_byteAt (i := 0x00) (by omega) (by omega) (h0.trans (flagByte_beq_one k0)) ?_
  refine drop_eq_of_byteAt (by omega) (by omega) (h1.trans (setByte_set k1 (by decide))) ?_
  refine drop_eq_of_byteAt (by omega) (by omega) (h2.trans (setByte_set k2 (by decide))) ?_
  refine drop_eq_of_byteAt (by omega) (by omega) (h3.trans (flagsByte_bits k3)) ?_
  refine drop_eq_of_byteAt (by omega) (by omega) h4 ?_
  refine drop_eq_of_byteAt (by omega) (by omega) h5 ?_
  refine drop_eq_of_numAt (k := 2) (by omega) (by omega) (h6.trans (toNat_ofNat_numAt bs _ 2)) ?_
  refine drop_eq_of_numAt (k := 2) (by omega) (by omega) (h8.trans (toNat_ofNat_numAt bs _ 2)) ?_
  refine drop_eq_of_byteAt (by omega) (by omega) (hA.trans (actionCode_of_byte kA)) ?_
  refine drop_eq_of_byteAt (by omega) (by omega) (hB.trans (routeCode_of_byte kB)) ?_
  refine drop_eq_of_byteAt (by omega) (by omega) (hC.trans (classByte_clsOfByte kC)) ?_
  refine drop_eq_of_byteAt (by omega) (by omega) (hD.trans (latePolicyCode_of_byte kD)) ?_
  refine drop_eq_of_byteAt (by omega) (by omega) hE ?_
  refine drop_eq_of_byteAt (by omega) (by omega) (hF.trans (overBudgetCode_of_byte kF)) ?_
  refine drop_eq_of_numAt (k := 2) (by omega) (by omega) (h10.trans (toNat_ofNat_numAt bs _ 2)) ?_
  refine drop_eq_of_numAt (k := 2) (by omega) (by omega) (h12.trans (toNat_ofNat_numAt bs _ 2)) ?_
  refine drop_eq_of_byteAt (by omega) (by omega) (h14.trans (monitorCode_of_byte k14)) ?_
  refine drop_eq_of_byteAt (by omega) (by omega) (h15.trans (flagByte_beq_one k15)) ?_
  refine drop_eq_of_numAt (k := 10) (by omega) (by omega) (h16.trans (toNat_ofNat_numAt bs _ 10)) ?_
  rw [List.drop_of_length_le (by omega), List.drop_of_length_le (by omega)]

theorem windowImage_windowOfImage {bs : List Byte} (hlen : bs.length = 16) (hok : windowEncodingOk bs = true) :
    windowImage (windowOfImage bs) = bs := by
  obtain ⟨k0, k1, k2, k3⟩ := (windowEncodingOk_iff bs).mp hok
  obtain ⟨h0, h1, h2, h3, h4, h7, hA, hB, hC, hD⟩ := windowImage_fields (windowOfImage bs)
  have hlen' := windowImage_length (windowOfImage bs)
  generalize windowImage (windowOfImage bs) = image at *
  refine drop_eq_of_byteAt (i := 0x00) (by omega) (by omega) (h0.trans (flagByte_beq_one k0)) ?_
  refine drop_eq_of_byteAt (by omega) (by omega) (h1.trans (portCode_of_byte k1)) ?_
  refine drop_eq_of_byteAt (by omega) (by omega) (h2.trans (setByte_set k2 (by decide))) ?_
  refine drop_eq_of_byteAt (by omega) (by omega) (h3.trans (flagsByte_bits k3)) ?_
  refine drop_eq_of_numAt (k := 3) (by omega) (by omega) (h4.trans (toNat_ofNat_numAt bs _ 3)) ?_
  refine drop_eq_of_numAt (k := 3) (by omega) (by omega) (h7.trans (toNat_ofNat_numAt bs _ 3)) ?_
  refine drop_eq_of_byteAt (by omega) (by omega) hA ?_
  refine drop_eq_of_byteAt (by omega) (by omega) hB ?_
  refine drop_eq_of_byteAt (by omega) (by omega) hC ?_
  refine drop_eq_of_numAt (k := 3) (by omega) (by omega) (hD.trans (toNat_ofNat_numAt bs _ 3)) ?_
  rw [List.drop_of_length_le (by omega), List.drop_of_length_le (by omega)]

theorem baseImage_baseOfImage {bs : List Byte} (hlen : bs.length = 64) (hok : baseEncodingOk bs = true) :
    baseImage (baseOfImage bs) = bs := by
  obtain ⟨k4, k5, kF, k10, k11, k24, k25, k27, k29⟩ := (baseEncodingOk_iff bs).mp hok
  obtain ⟨h0, h3, h4, h5, h6, h8, hA, hD, hF, h10, h11, h12, h16, h1A, h1E, h1F, h20, h24, h25, h26, h27, h28, h29, h2A, h2B,
    h2C⟩ := baseImage_fields (baseOfImage bs)
  have hlen' := baseImage_length (baseOfImage bs)
  generalize baseImage (baseOfImage bs) = image at *
  refine drop_eq_of_numAt (i := 0x00) (k := 3) (by omega) (by omega) (h0.trans (toNat_ofNat_numAt bs _ 3)) ?_
  refine drop_eq_of_byteAt (by omega) (by omega) h3 ?_
  refine drop_eq_of_byteAt (by omega) (by omega) (h4.trans (chainPortCode_of_byte k4)) ?_
  refine drop_eq_of_byteAt (by omega) (by omega) (h5.trans (unlockedCode_of_byte k5)) ?_
  refine drop_eq_of_numAt (k := 2) (by omega) (by omega) (h6.trans (toNat_ofNat_numAt bs _ 2)) ?_
  refine drop_eq_of_numAt (k := 2) (by omega) (by omega) (h8.trans (toNat_ofNat_numAt bs _ 2)) ?_
  refine drop_eq_of_numAt (k := 3) (by omega) (by omega) (hA.trans (toNat_ofNat_numAt bs _ 3)) ?_
  refine drop_eq_of_numAt (k := 2) (by omega) (by omega) (hD.trans (toNat_ofNat_numAt bs _ 2)) ?_
  refine drop_eq_of_byteAt (by omega) (by omega) (hF.trans (setByte_set kF (by decide))) ?_
  refine drop_eq_of_byteAt (by omega) (by omega) (h10.trans (setByte_set k10 (by decide))) ?_
  refine drop_eq_of_byteAt (by omega) (by omega) (h11.trans (setByte_set k11 (by decide))) ?_
  refine drop_eq_of_quadAt (by omega) (by omega) h12 ?_
  refine drop_eq_of_quadAt (by omega) (by omega) h16 ?_
  refine drop_eq_of_quadAt (by omega) (by omega) h1A ?_
  refine drop_eq_of_byteAt (by omega) (by omega) h1E ?_
  refine drop_eq_of_byteAt (by omega) (by omega) h1F ?_
  refine drop_eq_of_quadAt (by omega) (by omega) h20 ?_
  refine drop_eq_of_byteAt (by omega) (by omega) (h24.trans (unmatchedCode_of_byte k24)) ?_
  refine drop_eq_of_byteAt (by omega) (by omega) (h25.trans (chainPortCode_of_byte k25)) ?_
  refine drop_eq_of_byteAt (by omega) (by omega) h26 ?_
  refine drop_eq_of_byteAt (by omega) (by omega) (h27.trans (flagByte_beq_one k27)) ?_
  refine drop_eq_of_byteAt (by omega) (by omega) h28 ?_
  refine drop_eq_of_byteAt (by omega) (by omega) (h29.trans (setByte_set k29 (by decide))) ?_
  refine drop_eq_of_byteAt (by omega) (by omega) h2A ?_
  refine drop_eq_of_byteAt (by omega) (by omega) h2B ?_
  refine drop_eq_of_numAt (k := 20) (by omega) (by omega) (h2C.trans (toNat_ofNat_numAt bs _ 20)) ?_
  rw [List.drop_of_length_le (by omega), List.drop_of_length_le (by omega)]

/-- Settles O60: the fields of an image stand where 12.4 says, which gives both round trips. -/
theorem tableImagesRoundTrip : Obligations.TableImagesRoundTrip := by
  unfold Obligations.TableImagesRoundTrip
  intro code noBitFrom
  refine ⟨fun e => ⟨streamImage_length e, streamImage_ok e, streamOfImage_streamImage e⟩,
    fun w => ⟨windowImage_length w, windowImage_ok w, windowOfImage_windowImage w⟩,
    fun b => ⟨baseImage_length b, baseImage_ok b, baseOfImage_baseImage b⟩, fun bs => streamImage_streamOfImage,
    fun bs => windowImage_windowOfImage, fun bs => baseImage_baseOfImage, fun e => ?_, fun w => ?_, fun b => ?_, fun bs => ?_,
    fun bs => ?_, fun bs => ?_⟩
  · obtain ⟨h0, h1, h2, h3, h4, h5, h6, h8, hA, hB, hC, hD, hE, hF, h10, h12, h14, h15, h16⟩ := streamImage_fields e
    generalize streamImage e = image at *
    refine ⟨h0, fun i => ?_, fun i => ?_, ?_, h4, h5, h6, h8, ?_, ?_, ?_, ?_, hE, ?_, h10, h12, ?_, h15, h16⟩
    · rw [h1, bits_setByte _ (by decide)]
    · rw [h2, bits_setByte _ (by decide)]
    · rw [h3, toNat_flagsByte]
    · rw [hA]; cases e.action <;> rfl
    · rw [hB]; rcases e.route with (_ | _ | _) | _ | _ <;> rfl
    · rw [hC, toNat_classByte]
    · rw [hD]; cases e.late <;> rfl
    · rw [hF]; cases e.overBudget <;> rfl
    · rw [h14]; cases e.monitor <;> rfl
  · obtain ⟨h0, h1, h2, h3, h4, h7, hA, hB, hC, hD⟩ := windowImage_fields w
    generalize windowImage w = image at *
    refine ⟨h0, ?_, fun i => ?_, ?_, h4, h7, hA, hB, hC, hD⟩
    · rw [h1]; cases w.port <;> rfl
    · rw [h2, bits_setByte _ (by decide)]
    · rw [h3, toNat_flagsByte]
  · have hlen := baseImage_length b
    obtain ⟨h0, h3, h4, h5, h6, h8, hA, hD, hF, h10, h11, h12, h16, h1A, h1E, h1F, h20, h24, h25, h26, h27, h28, h29, h2A,
      h2B, h2C⟩ := baseImage_fields b
    generalize baseImage b = image at *
    refine ⟨h0, h3, ?_, ?_, h6, h8, hA, hD, fun p i => ?_, fun p c => ?_, h1E, h1F, ?_, ?_, ?_, h26, h27, h28, fun i => ?_, h2A,
      h2B, h2C⟩
    · rw [h4]; cases b.timingPort <;> rfl
    · rw [h5]; cases b.unlocked <;> rfl
    · have hset : byteAt image (0x0F + portBit p) = (b.scheduled.get p).setWidth 8 := by
        cases p <;> assumption
      rw [hset, bits_setByte _ (by decide)]
    · have hquad : quadAt image (0x12 + 4 * portBit p) = b.limits.get p := by cases p <;> assumption
      rw [← hquad]
      fin_cases c <;> rfl
    · rw [segment_eq_quadAt (by omega), h20]
    · rw [h24]; cases b.unmatched <;> rfl
    · rw [h25]; cases b.uplink <;> rfl
    · rw [h29, bits_setByte _ (by decide)]
  · rw [streamEncodingOk_iff, byteLe_one_iff, byteLe_iff_noBit (n := 3) _ (by decide), byteLe_iff_noBit (n := 4) _ (by decide),
      byteLe_iff_noBit (n := 2) _ (by decide), byteLe_two_iff, byteLe_four_iff, byteLe_three_iff, byteLe_two_iff,
      byteLe_one_iff, byteLe_two_iff, byteLe_one_iff]
  · rw [windowEncodingOk_iff, byteLe_one_iff, byteLe_two_iff, byteLe_iff_noBit (n := 4) _ (by decide),
      byteLe_iff_noBit (n := 2) _ (by decide)]
  · have hsets : (∀ p, noBitFrom 4 (byteAt bs (0x0F + portBit p))) ↔ byteLe (byteAt bs 0x0F) 15 = true ∧
        byteLe (byteAt bs 0x10) 15 = true ∧ byteLe (byteAt bs 0x11) 15 = true := by
      simp only [byteLe_iff_noBit (n := 4) _ (show 15 + 1 = 2 ^ 4 by decide)]
      exact ⟨fun h => ⟨h .A, h .B, h .L⟩, fun ⟨hA, hB, hL⟩ p => by cases p <;> assumption⟩
    rw [hsets, baseEncodingOk_iff, byteLe_one_iff, byteLe_one_iff, byteLe_one_iff, byteLe_one_iff, byteLe_one_iff,
      byteLe_iff_noBit (k := 15) (n := 4) (byteAt bs 0x29) (by decide)]
    tauto

end Sys2Proof.Machine
end
